-- ==== Sys2Proof/Word.lean ====
section
/-! DEFINITION. The widths the spec fixes for its encoded fields (30_encoding.md R60). Every field is a plain unsigned
binary number: none is signed, biased, Gray-coded or one-hot. -/

namespace Sys2Proof

/-- OP4: an operation code, as `op`, `fault_op` and `dbg_op` hold it (R60, R61). -/
abbrev OpCode := BitVec 4

/-- CH3: a channel selector, as `smp_ch` carries it (R60, R63). -/
abbrev ChannelCode := BitVec 3

/-- FC2: a fault code (R60, R65). -/
abbrev FaultBits := BitVec 2

/-- WAVE8 and the channel results: an 8-bit level (R60, 10_state.md R26, R28). -/
abbrev Level := BitVec 8

/-- COLOR24: `{R[7:0], G[7:0], B[7:0]}` (R60, 20_memory.md R47). -/
abbrev Color := BitVec 24

/-- U32: `time`, `delay_ms`, `remaining` (R60). -/
abbrev Word32 := BitVec 32

/-- SAMPLE: an unsigned value of N bits (R60). N is an argument of the model, so a sample is held as the number itself;
that it is below 2^N is part of the machine's invariant (log 6). DESIGN CHOICE, safe. -/
abbrev Sample := Nat

end Sys2Proof
end

