-- ==== Sys2Proof/Config.lean ====
section
/-! DEFINITION. What a build fixes (00_scope.md section 4), the values on the block's input ports, and the free values:
constants without a body, of which nothing can be proved. -/

namespace Sys2Proof

/-- `TX_FAULT_POLICY`: the response to a strip-writer error (00_scope.md R18). -/
inductive TxFaultPolicy where
  | halt
  | skip
  deriving DecidableEq, Repr

/-- The implementation parameters of 00_scope.md section 4, as raw data. `TIME_BITS` (R16) and `PHASE_SHIFT` (R17) are
fixed, so they are no fields. `FULL_SCALE` (R8) is computed. -/
structure Params where
  /-- `N`, the sample width in bits (R7). -/
  sampleBits : Nat
  /-- `TABLE_LEN`, 256 or 360 (R9). -/
  tableLen : Nat
  /-- `WAVE`, entry 0 first (R10). -/
  wave : List Level
  /-- `K1`, the right shift of the sine component (R11). -/
  k1 : Nat
  /-- `K2`, the right shift of the DC component (R11). -/
  k2 : Nat
  /-- `K3`, the right shift of their sum (R11). -/
  k3 : Nat
  /-- `OFFSET` of the delay law (R12). -/
  offset : Nat
  /-- `SCALE` of the delay law (R12). -/
  scale : Nat
  /-- `MIN_DELAY` in milliseconds (R13). -/
  minDelay : Nat
  /-- `MAX_DELAY` in milliseconds (R13). -/
  maxDelay : Nat
  /-- `NUM_LEDS`, the number of history slots (R14). -/
  numLeds : Nat
  /-- `BRIGHTNESS`, handed to the strip writer and never applied here (R15). -/
  brightness : Level
  /-- `TX_FAULT_POLICY` (R18). -/
  txFaultPolicy : TxFaultPolicy
  deriving DecidableEq, Repr

/-- `FULL_SCALE = 2^N - 1` (00_scope.md R8). -/
def Params.fullScale (p : Params) : Nat := 2 ^ p.sampleBits - 1

/-- The values on all input ports during one rising edge of `clk` (10_state.md R38 to R42). `smpData` is the number on
the data wires; the block has N of them and reads it through `smp_data[N-1:0]` (40_sample_source.md R73). -/
structure PortInputs where
  rst : Bool
  smpAck : Bool
  smpFault : Bool
  smpData : Nat
  wrDone : Bool
  wrErr : Bool
  msTick : Bool
  deriving DecidableEq, Repr, Inhabited

/-- An edge on which every input is 0. -/
def PortInputs.idle : PortInputs :=
  { rst := false, smpAck := false, smpFault := false, smpData := 0, wrDone := false, wrErr := false, msTick := false }

/-- What the environment drives on the n-th edge, where nothing says it: a FREE VALUE (log 2). A conversion's value is
"a free draw under no law" (40_sample_source.md R73, 93_implementation_defined.md I9, I13, I14). DESIGN CHOICE, safe. -/
opaque Config.drawnInputs : Nat → PortInputs

/-- `K1` of the reference build: OPEN, no value given (00_scope.md R11; log 4). -/
opaque Config.k1 : Nat
/-- `K2` of the reference build: OPEN (R11; log 4). -/
opaque Config.k2 : Nat
/-- `K3` of the reference build: OPEN (R11; log 4). -/
opaque Config.k3 : Nat
/-- `OFFSET` of the reference build: OPEN (R12; log 4). -/
opaque Config.offset : Nat
/-- `SCALE` of the reference build: OPEN (R12; log 4). -/
opaque Config.scale : Nat
/-- The two delay bounds of the reference build, in either order: OPEN (R13; log 4). -/
opaque Config.delayBounds : Word32 × Word32
/-- `BRIGHTNESS` of the reference build: OPEN (R15; log 4). -/
opaque Config.brightness : Level
/-- `WAVE[i]` for i ≥ 1 of the reference build: OPEN (R10; log 4). -/
opaque Config.waveEntry : Nat → Level

/-- The parameters of the reference build: the spec's reference values (N = 10, TABLE_LEN = 256, NUM_LEDS = 60, HALT;
00_scope.md R7, R9, R14, R18) and `WAVE[0] = 128` (R10), everything else open. DESIGN CHOICE (log 3): only
`State.reset` uses it. -/
def Config.referenceParams : Params :=
  { sampleBits := 10
    tableLen := 256
    wave := 128#8 :: (List.range 255).map (fun i => Config.waveEntry (i + 1))
    k1 := Config.k1
    k2 := Config.k2
    k3 := Config.k3
    offset := Config.offset
    scale := Config.scale
    minDelay := min Config.delayBounds.1.toNat Config.delayBounds.2.toNat
    maxDelay := max Config.delayBounds.1.toNat Config.delayBounds.2.toNat
    numLeds := 60
    brightness := Config.brightness
    txFaultPolicy := .halt }

/-- The names of the four test configurations, as a stimulus script's `config` line writes them (30_encoding.md R70,
95_test_vectors.md Part 1). They are argument sets for tests, not this hardware's values. -/
inductive TestConfig where
  | tc1
  | tc2
  | tc3
  | tc4
  deriving DecidableEq, Repr

/-- The sawtooth table of the test configurations, `(i + 128) mod 256` (95_test_vectors.md Part 1). -/
def TestConfig.sawtooth (len : Nat) : List Level :=
  (List.range len).map (fun i => BitVec.ofNat 8 (i + 128))

/-- TC1 of 95_test_vectors.md Part 1; the other three differ from it in a few parameters. -/
def TestConfig.base : Params :=
  { sampleBits := 10, tableLen := 256, wave := sawtooth 256, k1 := 18, k2 := 10, k3 := 2, offset := 100, scale := 2,
    minDelay := 0, maxDelay := 1000, numLeds := 4, brightness := 64#8, txFaultPolicy := .halt }

/-- The parameter sets of 95_test_vectors.md Part 1. -/
def TestConfig.params : TestConfig → Params
  | .tc1 => base
  | .tc2 => { base with k3 := 0 }
  | .tc3 => { base with tableLen := 360, wave := sawtooth 360, minDelay := 5 }
  | .tc4 => { base with numLeds := 1, txFaultPolicy := .skip }

end Sys2Proof
end

