-- ==== Sys2Proof/Syntax.lean ====
section
/-! DEFINITION. The instructions: the 15 defined steps of the sequencer (00_scope.md R2, 30_encoding.md R61), one
constructor per row of spec/opcode_table.json. No step has an operand field or an immediate (R66). Code 0xE is reserved
and has no constructor (R62). -/

namespace Sys2Proof

/-- A step of the frame scheduler's sequencer. -/
inductive Instr where
  /-- INIT, 0x0 (44_frame_scheduler.md R107). -/
  | init
  /-- SAMPLE_SPEED, 0x1 (40_sample_source.md R75). -/
  | sampleSpeed
  /-- DERIVE_DELAY, 0x2 (44_frame_scheduler.md R109). -/
  | deriveDelay
  /-- SAMPLE_SHAPE, 0x3 (40_sample_source.md R76). -/
  | sampleShape
  /-- SAMPLE_PHASE, 0x4 (40_sample_source.md R77). -/
  | samplePhase
  /-- SAMPLE_RED, 0x5 (40_sample_source.md R78). -/
  | sampleRed
  /-- SAMPLE_GREEN, 0x6 (40_sample_source.md R79). -/
  | sampleGreen
  /-- SAMPLE_BLUE, 0x7 (40_sample_source.md R80). -/
  | sampleBlue
  /-- SYNTH_RED, 0x8 (41_waveform_synthesis.md R90). -/
  | synthRed
  /-- SYNTH_GREEN, 0x9 (41_waveform_synthesis.md R91). -/
  | synthGreen
  /-- SYNTH_BLUE, 0xA (41_waveform_synthesis.md R92). -/
  | synthBlue
  /-- PUSH_FRONT, 0xB (42_history_buffer.md R97). -/
  | pushFront
  /-- WRITE_STRIP, 0xC (43_strip_writer.md R102). -/
  | writeStrip
  /-- WAIT_TICK, 0xD (44_frame_scheduler.md R111). -/
  | waitTick
  /-- HALTED, 0xF (44_frame_scheduler.md R116). -/
  | halted
  deriving DecidableEq, Repr

/-- All fifteen, in the order of their codes (30_encoding.md R61). -/
def Instr.all : List Instr :=
  [.init, .sampleSpeed, .deriveDelay, .sampleShape, .samplePhase, .sampleRed, .sampleGreen, .sampleBlue, .synthRed,
   .synthGreen, .synthBlue, .pushFront, .writeStrip, .waitTick, .halted]

/-- The mnemonic of 30_encoding.md R61. -/
def Instr.mnemonic : Instr → String
  | .init => "INIT"
  | .sampleSpeed => "SAMPLE_SPEED"
  | .deriveDelay => "DERIVE_DELAY"
  | .sampleShape => "SAMPLE_SHAPE"
  | .samplePhase => "SAMPLE_PHASE"
  | .sampleRed => "SAMPLE_RED"
  | .sampleGreen => "SAMPLE_GREEN"
  | .sampleBlue => "SAMPLE_BLUE"
  | .synthRed => "SYNTH_RED"
  | .synthGreen => "SYNTH_GREEN"
  | .synthBlue => "SYNTH_BLUE"
  | .pushFront => "PUSH_FRONT"
  | .writeStrip => "WRITE_STRIP"
  | .waitTick => "WAIT_TICK"
  | .halted => "HALTED"

/-- The six steps of `SAMPLE_OPS` (40_sample_source.md R73). -/
def Instr.isSample : Instr → Bool
  | .sampleSpeed | .sampleShape | .samplePhase | .sampleRed | .sampleGreen | .sampleBlue => true
  | .init | .deriveDelay | .synthRed | .synthGreen | .synthBlue | .pushFront | .writeStrip | .waitTick | .halted => false

/-- One `<v|!fault>` field of a stimulus script's frame line (30_encoding.md R70). -/
inductive Answer where
  | value (v : Nat)
  | fault
  deriving DecidableEq, Repr

/-- The `write=<ok|!err>` field of a frame line (30_encoding.md R70). -/
inductive WriteAnswer where
  | ok
  | err
  deriving DecidableEq, Repr

/-- One `frame` line of a stimulus script, its seven fields in the order R70 writes them. -/
structure FrameLine where
  speed : Answer
  shape : Answer
  phase : Answer
  red : Answer
  green : Answer
  blue : Answer
  write : WriteAnswer
  deriving DecidableEq, Repr

/-- A stimulus script: one `config` line, then one `frame` line per frame (30_encoding.md R70). -/
structure Script where
  config : TestConfig
  frames : List FrameLine
  deriving DecidableEq, Repr

end Sys2Proof
end

