-- ==== Sys2Proof/WellFormed.lean ====
section
/-! DEFINITION. What is checked before anything runs: a build configuration (70_reset_and_hazards.md R136 item 1,
refused at elaboration) and the sample values of a stimulus script (30_encoding.md R72). An instruction has no fields
to check. -/

namespace Sys2Proof

/-- A legal build configuration: item 1 of 70_reset_and_hazards.md R136 (00_scope.md R7 to R17). Entries of `WAVE` are
8-bit by their type (R10). -/
abbrev Params.Legal (p : Params) : Prop :=
  1 ≤ p.sampleBits ∧
  (p.tableLen = 256 ∨ p.tableLen = 360) ∧
  p.wave.length = p.tableLen ∧
  (p.tableLen = 256 → p.wave[0]? = some 128#8) ∧
  p.minDelay ≤ p.maxDelay ∧
  p.maxDelay ≤ 2 ^ 32 - 1 ∧
  1 ≤ p.numLeds

/-- Which check a configuration breaks, for the refusal by name. -/
inductive IllegalBuild where
  /-- N = 0 (00_scope.md R7). -/
  | sampleBits
  /-- TABLE_LEN is neither 256 nor 360 (R9). -/
  | tableLen
  /-- `WAVE` has not TABLE_LEN entries (R10). -/
  | waveLength
  /-- TABLE_LEN = 256 and `WAVE[0]` is not 128 (R10). -/
  | waveStart
  /-- MIN_DELAY > MAX_DELAY (R13). -/
  | delayOrder
  /-- MAX_DELAY > 2^32 - 1 (R13). -/
  | delayWidth
  /-- NUM_LEDS = 0 (R14). -/
  | numLeds
  deriving DecidableEq, Repr

/-- A build: parameters together with their legality, so that an illegal configuration cannot be built at all
("A model or tool handed a configuration that breaks item 1 must refuse it", R136; log 5). -/
structure Build extends Params where
  legal : toParams.Legal
  deriving DecidableEq, Repr

/-- The first check a configuration breaks, if any. -/
def Params.broken (p : Params) : Option IllegalBuild :=
  if p.sampleBits = 0 then some .sampleBits
  else if ¬ (p.tableLen = 256 ∨ p.tableLen = 360) then some .tableLen
  else if p.wave.length ≠ p.tableLen then some .waveLength
  else if p.tableLen = 256 ∧ p.wave[0]? ≠ some 128#8 then some .waveStart
  else if p.maxDelay < p.minDelay then some .delayOrder
  else if 2 ^ 32 - 1 < p.maxDelay then some .delayWidth
  else if p.numLeds = 0 then some .numLeds
  else none

/-- A configuration that breaks no check is legal. -/
theorem Params.legal_of_not_broken (p : Params) (h : p.broken = none) : p.Legal := by
  unfold Params.broken at h
  split at h <;> try contradiction
  split at h <;> try contradiction
  split at h <;> try contradiction
  split at h <;> try contradiction
  split at h <;> try contradiction
  split at h <;> try contradiction
  split at h <;> try contradiction
  refine ⟨by omega, by tauto, by tauto, fun h256 => ?_, by omega, by omega, by omega⟩
  by_contra hw
  exact ‹¬ (p.tableLen = 256 ∧ _)› ⟨h256, hw⟩

/-- Elaborate a configuration: a build, or the refusal by name of the check it breaks (R9, R13, R136). -/
def Params.elaborate (p : Params) : Except IllegalBuild Build :=
  match h : p.broken with
  | some e => .error e
  | none => .ok ⟨p, p.legal_of_not_broken h⟩

theorem Config.referenceParams_legal : Config.referenceParams.Legal := by
  refine ⟨by decide, .inl rfl, ?_, fun _ => rfl, ?_, ?_, by decide⟩
  · simp [Config.referenceParams]
  · exact min_le_max
  · have h1 := Config.delayBounds.1.isLt
    have h2 := Config.delayBounds.2.isLt
    simp only [Config.referenceParams]
    omega

/-- The build that `State.reset` stands in (log 3). -/
def Config.referenceBuild : Build := ⟨Config.referenceParams, Config.referenceParams_legal⟩

/-- Every step of the sequencer is a well-formed instruction: it has no operand field (30_encoding.md R66). The codes
that are no instruction are refused by the decoder. -/
def Instr.wellFormed (_ : Instr) : Bool := true

/-- A field of a frame line is well-formed if its value is in [0, FULL_SCALE] (30_encoding.md R70, R72). -/
def Answer.wellFormed (p : Params) : Answer → Bool
  | .value v => decide (v ≤ p.fullScale)
  | .fault => true

/-- A frame line is well-formed if all its sample fields are (R72), those after the first `!fault` too (DESIGN CHOICE,
log 20). -/
def FrameLine.wellFormed (p : Params) (f : FrameLine) : Bool :=
  f.speed.wellFormed p && f.shape.wellFormed p && f.phase.wellFormed p &&
  f.red.wellFormed p && f.green.wellFormed p && f.blue.wellFormed p

/-- A script is well-formed if all its frame lines are, under its own configuration (R70, R72). -/
def Script.wellFormed (s : Script) : Bool := s.frames.all (fun f => f.wellFormed s.config.params)

end Sys2Proof
end

