-- ==== Sys2Proof/Decode.lean ====
section
/-! DEFINITION. The decoder of the one format, the 4-bit op code (30_encoding.md R68), with its rejections by name; the
encoder after it; the selectors of the sample channels (R63). The op code is not fetched from a memory: it is the
content of the register `op`. -/

namespace Sys2Proof

/-- Why a word is no instruction. -/
inductive DecodeError where
  /-- Code 0xE (30_encoding.md R62). -/
  | reservedOp
  /-- More than the 4 bits of an op code (R68). -/
  | notFourBits
  deriving DecidableEq, Repr

/-- The map of 30_encoding.md R61, total on the 4 bits of `op`. -/
def decodeOp (c : OpCode) : Except DecodeError Instr :=
  match c.toNat with
  | 0x0 => .ok .init
  | 0x1 => .ok .sampleSpeed
  | 0x2 => .ok .deriveDelay
  | 0x3 => .ok .sampleShape
  | 0x4 => .ok .samplePhase
  | 0x5 => .ok .sampleRed
  | 0x6 => .ok .sampleGreen
  | 0x7 => .ok .sampleBlue
  | 0x8 => .ok .synthRed
  | 0x9 => .ok .synthGreen
  | 0xA => .ok .synthBlue
  | 0xB => .ok .pushFront
  | 0xC => .ok .writeStrip
  | 0xD => .ok .waitTick
  | 0xF => .ok .halted
  | _ => .error .reservedOp

/-- The decoder on any number: the op code is bits 3..0, and no further bit exists (R68; log 14). -/
def decodeWord (w : Nat) : Except DecodeError Instr :=
  if w < 16 then decodeOp (BitVec.ofNat 4 w) else .error .notFourBits

/-- The decoder on any bytes, the first at the lowest place: the op code is the low half of the first byte, and every
other bit, of that byte and of the bytes after it, must be absent or 0 (R68; log 14). -/
def decodeBytes : List (BitVec 8) → Except DecodeError Instr
  | [] => .error .notFourBits
  | b :: rest => if rest.all (· == 0#8) then decodeWord b.toNat else .error .notFourBits

/-- The instruction the decoder reads from an opcode-table word (bit 0 the least significant bit of the op code). -/
def decodeTableWord (_nbits w : Nat) : Option Instr :=
  match decodeWord w with
  | .ok i => some i
  | .error _ => none

/-- The code of a step (30_encoding.md R61). -/
def encode : Instr → OpCode
  | .init => 0x0#4
  | .sampleSpeed => 0x1#4
  | .deriveDelay => 0x2#4
  | .sampleShape => 0x3#4
  | .samplePhase => 0x4#4
  | .sampleRed => 0x5#4
  | .sampleGreen => 0x6#4
  | .sampleBlue => 0x7#4
  | .synthRed => 0x8#4
  | .synthGreen => 0x9#4
  | .synthBlue => 0xA#4
  | .pushFront => 0xB#4
  | .writeStrip => 0xC#4
  | .waitTick => 0xD#4
  | .halted => 0xF#4

/-- The encoding of a sequence of steps: its op codes in order (30_encoding.md R69). -/
def encodeAll (is : List Instr) : List OpCode := is.map encode

/-- Read a sequence of op codes back; the first code that is no step refuses the whole (30_encoding.md R62, R72). -/
def decodeAll : List OpCode → Except DecodeError (List Instr)
  | [] => .ok []
  | c :: cs =>
    match decodeOp c with
    | .error e => .error e
    | .ok i =>
      match decodeAll cs with
      | .error e => .error e
      | .ok is => .ok (i :: is)

/-- The channels of the sample source, as 30_encoding.md R63 names them. -/
inductive Channel where
  | redLevel
  | greenLevel
  | blueLevel
  | speed
  | shape
  | phase
  deriving DecidableEq, Repr

/-- The `smp_ch` codes; 6 and 7 are reserved and never driven (30_encoding.md R63, R64). -/
def Channel.code : Channel → ChannelCode
  | .redLevel => 0#3
  | .greenLevel => 1#3
  | .blueLevel => 2#3
  | .speed => 3#3
  | .shape => 4#3
  | .phase => 5#3

/-- CH of 40_sample_source.md R73: the channel of a SAMPLE step. -/
def Instr.channel : Instr → Option Channel
  | .sampleSpeed => some .speed
  | .sampleShape => some .shape
  | .samplePhase => some .phase
  | .sampleRed => some .redLevel
  | .sampleGreen => some .greenLevel
  | .sampleBlue => some .blueLevel
  | .init | .deriveDelay | .synthRed | .synthGreen | .synthBlue | .pushFront | .writeStrip | .waitTick | .halted => none

end Sys2Proof
end

