-- ==== Sys2Proof/Machine/State.lean ====
section
/-! DEFINITION. The state as plain data: the record S of 10_state.md R36, the build's constants (`WAVE` among them),
and three fields of the model's own (`resetSeen`, `stim`, `edge`); the reasons a step can stop; the machine right after
reset. -/

namespace Sys2Proof.Machine

/-- The state of the block and of the model's environment. The first sixteen fields are the record S of 10_state.md
R36, in its order. -/
structure State where
  /-- `op`: the op code of the step in progress; it takes the place of a program counter (R22). -/
  op : OpCode
  /-- `time`: the TimeCounter (R24). -/
  time : Word32
  /-- `speed_s` (R25). -/
  speedS : Sample
  /-- `shape_s` (R25). -/
  shapeS : Sample
  /-- `phase_s` (R25). -/
  phaseS : Sample
  /-- `red_s` (R25). -/
  redS : Sample
  /-- `green_s` (R25). -/
  greenS : Sample
  /-- `blue_s` (R25). -/
  blueS : Sample
  /-- `r_v` (R26). -/
  rV : Level
  /-- `g_v` (R26). -/
  gV : Level
  /-- `b_v` (R26). -/
  bV : Level
  /-- `hist[0..NUM_LEDS-1]`: the History Buffer, entry 0 first (R27, 20_memory.md R46). -/
  hist : List Color
  /-- `delay_ms` (R29). -/
  delayMs : Word32
  /-- `remaining` (R30). -/
  remaining : Word32
  /-- `fault_code` (R31). -/
  faultCode : FaultBits
  /-- `fault_op` (R32). -/
  faultOp : OpCode
  /-- The build: `WAVE` (R28) and every other constant of 00_scope.md section 4. No step writes it (log 3). -/
  cfg : Build
  /-- MODEL's own: a reset edge has come since power-on (70_reset_and_hazards.md R137; log 7). -/
  resetSeen : Bool
  /-- MODEL's own: the values on the input ports on the coming edges, this edge's first (log 2). -/
  stim : List PortInputs
  /-- MODEL's own: the number of this edge, which selects the free input values once `stim` is used up (log 2). -/
  edge : Nat
  deriving DecidableEq, Repr

/-- The canonical form of the block's only writable storage: `hist` has exactly NUM_LEDS entries
(10_state.md R27, 42_history_buffer.md R99; log 12). Two equal buffers are then equal lists. -/
def Memory.wf (b : Build) (hist : List Color) : Bool := hist.length == b.numLeds

/-- The reasons of a stop by fault: NONE. The block's own faults, SAMPLE_FAULT and TRANSMIT_FAULT, are TAKEN: their entry
is a next state with `op = HALTED` (60_exceptions.md R119; log 10). -/
inductive Fault where
  deriving DecidableEq, Repr

/-- The reasons a step has no meaning. -/
inductive Refusal where
  /-- Raised by an arm of `exec` that gives its instruction no meaning yet; no arm does. Safe. -/
  | notModelled (mnemonic : String)
  /-- Raised by the sequencer in a state with `op = 0xE`: "A model that is handed a state with `op = 0xE` must refuse it"
  (30_encoding.md R62). Safe: no run from reset reaches it. -/
  | reservedOp
  /-- Raised by the sequencer on an edge with `rst = 0` when no reset edge has come since power-on: "must not run any
  step rule from it" (70_reset_and_hazards.md R137; log 7). Safe. -/
  | noResetSincePowerOn
  /-- Raised by the sequencer in a state that holds fault code 3: "a model that produces code 3 must `refuse` its own
  state" (93_implementation_defined.md I12, 60_exceptions.md R122; log 8). Safe: no run from reset reaches it. -/
  | unsupportedOpRecorded
  deriving DecidableEq, Repr

/-- The machine right after a reset edge, for a build and an environment: every field at the value of
70_reset_and_hazards.md R133. -/
def State.afterReset (b : Build) (stim : List PortInputs) (edge : Nat) : State :=
  { op := encode .init
    time := 0
    speedS := 0
    shapeS := 0
    phaseS := 0
    redS := 0
    greenS := 0
    blueS := 0
    rV := 0
    gV := 0
    bV := 0
    hist := List.replicate b.numLeds 0
    delayMs := 0
    remaining := 0
    faultCode := 0
    faultOp := 0
    cfg := b
    resetSeen := true
    stim := stim
    edge := edge }

/-- The machine right after reset (70_reset_and_hazards.md R133), in the reference build (log 3), with no input value
listed (log 2). -/
def State.reset : State := State.afterReset Config.referenceBuild [] 0

end Sys2Proof.Machine
end

