-- ==== Sys2Proof/Machine/Flags.lean ====
section
/-! DEFINITION. The block has no condition codes and no status flags besides `fault_code` and the derived output
`halted` (10_state.md R33); no step branches on a flag. The fault codes stand here (30_encoding.md R65). -/

namespace Sys2Proof.Machine

/-- NONE: no fault; the block is not halted (30_encoding.md R65). -/
def FaultCode.none : FaultBits := 0#2
/-- SAMPLE_FAULT (R65, 60_exceptions.md R120). -/
def FaultCode.sample : FaultBits := 1#2
/-- TRANSMIT_FAULT (R65, 60_exceptions.md R121). -/
def FaultCode.transmit : FaultBits := 2#2
/-- UNSUPPORTED_OP: defined, never raised (R65, 60_exceptions.md R122). -/
def FaultCode.unsupported : FaultBits := 3#2

/-- The status output `halted`: 1 iff `op = HALTED` (10_state.md R43). -/
def halted (s : State) : Bool := s.op == encode .halted

end Sys2Proof.Machine
end

