-- ==== Sys2Proof/Machine/Operands.lean ====
section
/-! DEFINITION. Operand assembly and the datapath's combinational functions, which have no state of their own: phase
accumulator, table lookup, multiply-accumulate (41_waveform_synthesis.md R82 to R88), color packing (20_memory.md R47),
the delay law (44_frame_scheduler.md R108). Arithmetic is exact on the naturals (00_scope.md R20, 30_encoding.md R66). -/

namespace Sys2Proof.Machine

/-- `sat_sub(a, b)`: `a - b` if `a ≥ b`, else 0 (00_scope.md R20). -/
def satSub (a b : Nat) : Nat := if b ≤ a then a - b else 0

/-- `clamp(v, lo, hi) = min(max(v, lo), hi)` (00_scope.md R20). -/
def clamp (v lo hi : Nat) : Nat := min (max v lo) hi

/-- `smp_data[N-1:0]`: the N data wires of the sample port (40_sample_source.md R73, 10_state.md R39; log 6). -/
def sampleBitsOf (b : Build) (data : Nat) : Sample := data % 2 ^ b.sampleBits

/-- `phase_delay(phase_s) = phase_s >> 3` (41_waveform_synthesis.md R82, 00_scope.md R17, 30_encoding.md R67). -/
def phaseDelay (phase : Sample) : Nat := phase >>> 3

theorem tableLen_pos (b : Build) : 0 < b.tableLen := by
  rcases b.legal.2.1 with h | h <;> omega

/-- `wave_index(time, k, phase_s) = (time + k · phase_delay(phase_s)) mod TABLE_LEN`; the sum is exact, 33 bits wide
(41_waveform_synthesis.md R83). Its type makes an index out of range unbuildable (20_memory.md R50). -/
def waveIndex (b : Build) (time : Word32) (k : Nat) (phase : Sample) : Fin b.tableLen :=
  ⟨(time.toNat + k * phaseDelay phase) % b.tableLen, Nat.mod_lt _ (tableLen_pos b)⟩

/-- `lut(i) = WAVE[i]` (41_waveform_synthesis.md R85). -/
def lut (b : Build) (i : Fin b.tableLen) : Level := b.wave[i.val]'(by rw [b.legal.2.2.1]; exact i.isLt)

/-- `dc_offset(shape_s) = FULL_SCALE - shape_s` (41_waveform_synthesis.md R86). -/
def dcOffset (b : Build) (shape : Sample) : Nat := b.fullScale - shape

/-- `sine_component = (ch · w · s) >> K1` (41_waveform_synthesis.md R87). -/
def sineComponent (b : Build) (ch : Sample) (w : Level) (s : Sample) : Nat := (ch * w.toNat * s) >>> b.k1

/-- `dc_component = (ch · dc_offset(s)) >> K2` (41_waveform_synthesis.md R87). -/
def dcComponent (b : Build) (ch s : Sample) : Nat := (ch * dcOffset b s) >>> b.k2

/-- `mac(ch, w, s) = ((sine_component + dc_component) >> K3) mod 256`: the one reduction of the datapath, never a clamp
(41_waveform_synthesis.md R87, 90_conflicts.md C6). -/
def mac (b : Build) (ch : Sample) (w : Level) (s : Sample) : Level :=
  BitVec.ofNat 8 ((sineComponent b ch w s + dcComponent b ch s) >>> b.k3)

/-- The shared datapath of the three SYNTH steps, for channel multiplier k and channel sample ch
(41_waveform_synthesis.md R89, R96). -/
def synthesize (s : State) (k : Nat) (ch : Sample) : Level :=
  mac s.cfg ch (lut s.cfg (waveIndex s.cfg s.time k s.phaseS)) s.shapeS

/-- COLOR24 `{R[7:0], G[7:0], B[7:0]}` (20_memory.md R47). -/
def packColor (r g b : Level) : Color := r ++ g ++ b

/-- `delay_of(x) = clamp(sat_sub(x, OFFSET) · SCALE, MIN_DELAY, MAX_DELAY)` (44_frame_scheduler.md R108). -/
def delayOf (b : Build) (x : Sample) : Nat := clamp (satSub x b.offset * b.scale) b.minDelay b.maxDelay

/-- `hist[i]`, for the reading of single entries by statements; no step reads one by a computed index, and an index out
of range has no value (20_memory.md R46, R50). -/
def histEntry (s : State) (i : Nat) : Option Color := s.hist[i]?

end Sys2Proof.Machine
end

