-- ==== Sys2Proof/Machine/Ops.lean ====
section
/-! DEFINITION. The named operations the steps share: reading the input ports, moving to the next step, taking a fault
and the only way back from one (reset), the two handshakes, head insertion into the History Buffer. -/

namespace Sys2Proof.Machine

/-- The outcome of an edge. -/
abbrev Result := Host.Outcome State Fault Refusal

/-- `in.x`: the values on the input ports during this edge: the first listed ones, or the free ones of this edge's number
where none is listed (00_scope.md R21; log 2). -/
def State.now (s : State) : PortInputs :=
  match s.stim with
  | e :: _ => e
  | [] => Config.drawnInputs s.edge

/-- The sample on the port, `in.smp_data[N-1:0]` (40_sample_source.md R73). -/
def State.sampleIn (s : State) : Sample := sampleBitsOf s.cfg s.now.smpData

/-- The edge is over: its listed input values are used up (log 2). -/
def State.advance (s : State) : State := { s with stim := s.stim.tail, edge := s.edge + 1 }

/-- `op <- <step>`. -/
def State.goto (s : State) (i : Instr) : State := { s with op := encode i }

/-- Fault entry (60_exceptions.md R119) on an edge in which step `p` is executing: three writes and nothing else. -/
def State.enterFault (s : State) (code : FaultBits) (p : Instr) : State :=
  { s with faultCode := code, faultOp := encode p, op := encode .halted }

/-- `raise Fault(code)` (60_exceptions.md R119): the fault is taken, a next state. -/
def raiseFault (code : FaultBits) (p : Instr) (s : State) : Result := .next (s.enterFault code p)

/-- The reset edge: every field of S takes its reset value, `WAVE` and the other constants stay
(70_reset_and_hazards.md R133). It is also the only way out of HALTED: there is no return from a fault
(60_exceptions.md R124). -/
def State.resetRegisters (s : State) : State :=
  { s with
    op := encode .init
    time := 0
    speedS := 0
    shapeS := 0
    phaseS := 0
    redS := 0
    greenS := 0
    blueS := 0
    rV := 0
    gV := 0
    bV := 0
    hist := List.replicate s.cfg.numLeds 0
    delayMs := 0
    remaining := 0
    faultCode := FaultCode.none
    faultOp := 0
    resetSeen := true }

/-- The sample handshake of 40_sample_source.md R73 for step `p`: the fault beats the acknowledge (R74), and with neither
the step holds. `stored` is the state with the sample register written, `next` the successor. -/
def sampleHandshake (p next : Instr) (stored s : State) : Result :=
  if s.now.smpFault then raiseFault FaultCode.sample p s
  else if s.now.smpAck then .next (stored.goto next)
  else .next s

/-- The strip handshake of 43_strip_writer.md R101 to R103: the error beats the completion, its effect is the build's
`TX_FAULT_POLICY`, and with neither the step holds. -/
def stripHandshake (p next : Instr) (s : State) : Result :=
  if s.now.wrErr then
    match s.cfg.txFaultPolicy with
    | .halt => raiseFault FaultCode.transmit p s
    | .skip => .next (s.goto next)
  else if s.now.wrDone then .next (s.goto next)
  else .next s

/-- `push_front` (42_history_buffer.md R97): every entry moves one position toward the tail, the last falls off, the new
color is entry 0. The length stays NUM_LEDS. -/
def pushColor (b : Build) (c : Color) (hist : List Color) : List Color := (c :: hist).take b.numLeds

/-- One counted millisecond: `time <- (time + 1) mod 2^32`, `remaining <- remaining - 1` (44_frame_scheduler.md R111,
R113). -/
def State.countTick (s : State) : State := { s with time := s.time + 1, remaining := s.remaining - 1 }

/-- An edge on which both collaborators complete and a millisecond has passed, for `placeStep` (log 11). -/
def answeringEdge : PortInputs :=
  { rst := false, smpAck := true, smpFault := false, smpData := 1, wrDone := true, wrErr := false, msTick := true }

/-- The state in which the very next edge runs the step of op code `c`: the code stands in `op`, a reset has been seen,
and the edge is no reset edge. Where no input value is listed, the edge is `answeringEdge` (log 11). -/
def State.placeStep (s : State) (c : OpCode) : State :=
  { s with
    op := c
    resetSeen := true
    stim := match s.stim with
      | [] => [answeringEdge]
      | e :: rest => { e with rst := false } :: rest }

end Sys2Proof.Machine
end

