-- ==== Sys2Proof/Machine/FrameScheduler.lean ====
section
/-! DEFINITION. The frame scheduler's own steps (44_frame_scheduler.md): INIT, DERIVE_DELAY, WAIT_TICK, HALTED. -/

namespace Sys2Proof.Machine

/-- INIT (R107): it writes nothing but `op`. -/
def execInit (s : State) : Result := .next (s.goto .sampleSpeed)

/-- DERIVE_DELAY (R109). The delay fits the 32 bits, because MAX_DELAY does (R108, 00_scope.md R13). -/
def execDeriveDelay (s : State) : Result :=
  let d : Word32 := BitVec.ofNat 32 (delayOf s.cfg s.speedS)
  .next ({ s with delayMs := d, remaining := d }.goto .sampleShape)

/-- WAIT_TICK (R111): exit when nothing remains, ignoring a tick on that edge; else count a tick, or hold. -/
def execWaitTick (s : State) : Result :=
  if s.remaining = 0#32 then .next (s.goto .sampleSpeed)
  else if s.now.msTick then .next s.countTick
  else .next s

/-- HALTED (R116): no state changes. Only `rst` leaves it. -/
def execHalted (s : State) : Result := .next s

end Sys2Proof.Machine
end

