-- ==== Sys2Proof/Machine/HistoryBuffer.lean ====
section
/-! DEFINITION. The history buffer step (42_history_buffer.md). -/

namespace Sys2Proof.Machine

/-- PUSH_FRONT (R97): the packed color of the three results goes in at the head, all entries on one edge. -/
def execPushFront (s : State) : Result :=
  .next ({ s with hist := pushColor s.cfg (packColor s.rV s.gV s.bV) s.hist }.goto .writeStrip)

end Sys2Proof.Machine
end

