-- ==== Sys2Proof/Machine/SampleSource.lean ====
section
/-! DEFINITION. The six SAMPLE steps (40_sample_source.md R73 to R81). Each stores the N bits of `smp_data` unchanged;
nothing is checked, clamped, buffered or averaged (R81). -/

namespace Sys2Proof.Machine

/-- SAMPLE_SPEED (R75). -/
def execSampleSpeed (s : State) : Result :=
  sampleHandshake .sampleSpeed .deriveDelay { s with speedS := s.sampleIn } s

/-- SAMPLE_SHAPE (R76). -/
def execSampleShape (s : State) : Result :=
  sampleHandshake .sampleShape .samplePhase { s with shapeS := s.sampleIn } s

/-- SAMPLE_PHASE (R77). -/
def execSamplePhase (s : State) : Result :=
  sampleHandshake .samplePhase .sampleRed { s with phaseS := s.sampleIn } s

/-- SAMPLE_RED (R78). -/
def execSampleRed (s : State) : Result :=
  sampleHandshake .sampleRed .sampleGreen { s with redS := s.sampleIn } s

/-- SAMPLE_GREEN (R79). -/
def execSampleGreen (s : State) : Result :=
  sampleHandshake .sampleGreen .sampleBlue { s with greenS := s.sampleIn } s

/-- SAMPLE_BLUE (R80). -/
def execSampleBlue (s : State) : Result :=
  sampleHandshake .sampleBlue .synthRed { s with blueS := s.sampleIn } s

end Sys2Proof.Machine
end

