-- ==== Sys2Proof/Machine/StripWriter.lean ====
section
/-! DEFINITION. The strip writer step (43_strip_writer.md). -/

namespace Sys2Proof.Machine

/-- WRITE_STRIP (R101 to R103). It writes no data register; the colors go out on `wr_colors`, unscaled (R104). -/
def execWriteStrip (s : State) : Result := stripHandshake .writeStrip .waitTick s

end Sys2Proof.Machine
end

