-- ==== Sys2Proof/Machine/WaveformSynthesis.lean ====
section
/-! DEFINITION. The three SYNTH steps (41_waveform_synthesis.md R90 to R92): one edge each, never holding, no fault. -/

namespace Sys2Proof.Machine

/-- SYNTH_RED (R90): channel multiplier 0. -/
def execSynthRed (s : State) : Result :=
  .next ({ s with rV := synthesize s 0 s.redS }.goto .synthGreen)

/-- SYNTH_GREEN (R91): channel multiplier 1. -/
def execSynthGreen (s : State) : Result :=
  .next ({ s with gV := synthesize s 1 s.greenS }.goto .synthBlue)

/-- SYNTH_BLUE (R92): channel multiplier 2. -/
def execSynthBlue (s : State) : Result :=
  .next ({ s with bV := synthesize s 2 s.blueS }.goto .pushFront)

end Sys2Proof.Machine
end

