-- ==== Sys2Proof/Machine/Dispatch.lean ====
section
/-! DEFINITION. What each step does on an edge without reset, the rule of each named in its meaning
(44_frame_scheduler.md R106). -/

namespace Sys2Proof.Machine

def exec (i : Instr) (s : State) : Host.Outcome State Fault Refusal :=
  match i with
  | .init => Sys2Proof.Machine.execInit s
  | .sampleSpeed => Sys2Proof.Machine.execSampleSpeed s
  | .deriveDelay => Sys2Proof.Machine.execDeriveDelay s
  | .sampleShape => Sys2Proof.Machine.execSampleShape s
  | .samplePhase => Sys2Proof.Machine.execSamplePhase s
  | .sampleRed => Sys2Proof.Machine.execSampleRed s
  | .sampleGreen => Sys2Proof.Machine.execSampleGreen s
  | .sampleBlue => Sys2Proof.Machine.execSampleBlue s
  | .synthRed => Sys2Proof.Machine.execSynthRed s
  | .synthGreen => Sys2Proof.Machine.execSynthGreen s
  | .synthBlue => Sys2Proof.Machine.execSynthBlue s
  | .pushFront => Sys2Proof.Machine.execPushFront s
  | .writeStrip => Sys2Proof.Machine.execWriteStrip s
  | .waitTick => Sys2Proof.Machine.execWaitTick s
  | .halted => Sys2Proof.Machine.execHalted s

end Sys2Proof.Machine
end

