-- ==== Sys2Proof/Machine/Sequencer.lean ====
section
/-! DEFINITION. One rising edge of `clk` (44_frame_scheduler.md R106). -/

namespace Sys2Proof.Machine

/-- The edge is over for a step that answers a next state. -/
def endEdge : Result → Result
  | .next t => .next t.advance
  | .fault r => .fault r
  | .refused r => .refused r

/-- An edge with `rst = 0`: the rule of the step named by `op` (44_frame_scheduler.md R106). Refused, in this order: a
state that no reset edge has initialised (70_reset_and_hazards.md R137), a state that holds fault code 3
(60_exceptions.md R122), the reserved code (30_encoding.md R62). -/
def runStep (s : State) : Result :=
  if s.resetSeen = false then .refused .noResetSincePowerOn
  else if s.faultCode = FaultCode.unsupported then .refused .unsupportedOpRecorded
  else
    match decodeOp s.op with
    | .error _ => .refused .reservedOp
    | .ok i => endEdge (exec i s)

/-- One rising edge: reset beats everything (60_exceptions.md R123, 70_reset_and_hazards.md R133). -/
def clockEdge (s : State) : Result :=
  if s.now.rst then .next s.resetRegisters.advance else runStep s

end Sys2Proof.Machine
end

