-- ==== Sys2Proof/Machine/Step.lean ====
section
/-! DEFINITION. The step of the machine is one rising edge of `clk` (log 1). -/

namespace Sys2Proof.Machine

/-- One rising edge (44_frame_scheduler.md R106). -/
def step (s : State) : Host.Outcome State Fault Refusal := clockEdge s

/-- `s` with the op code `w` placed in `op`, so that the very next edge runs that step (log 11). The op code is not
fetched from a memory (30_encoding.md R68). -/
def State.withFetchWord (s : State) (_nbits w : Nat) : State := s.placeStep (BitVec.ofNat 4 w)

end Sys2Proof.Machine
end

