-- ==== Sys2Proof/Machine/Ports.lean ====
section
/-! DEFINITION. The output ports (10_state.md R39, R40, R43): Moore outputs, functions of the state alone (R38). -/

namespace Sys2Proof.Machine

/-- The step in progress, if `op` holds a code of one. -/
def State.instr? (s : State) : Option Instr :=
  match decodeOp s.op with
  | .ok i => some i
  | .error _ => none

/-- The channel of the SAMPLE step in progress, if there is one (40_sample_source.md R73). -/
def State.channel? (s : State) : Option Channel := s.instr?.bind Instr.channel

/-- `smp_req`: 1 while `op` is one of the six SAMPLE codes (10_state.md R39). -/
def smpReq (s : State) : Bool := s.channel?.isSome

/-- `smp_ch`: the selector of the SAMPLE step in progress, 0 when `smp_req = 0` (10_state.md R39, 30_encoding.md R63). -/
def smpCh (s : State) : ChannelCode :=
  match s.channel? with
  | some c => c.code
  | none => 0

/-- `wr_req`: 1 while `op = WRITE_STRIP` (10_state.md R40). -/
def wrReq (s : State) : Bool := s.op == encode .writeStrip

/-- STRIP: slot i at bits 24·i+23 .. 24·i (20_memory.md R48). -/
def packStrip : List Color → Nat
  | [] => 0
  | c :: rest => c.toNat + 2 ^ 24 * packStrip rest

/-- `wr_colors`: the whole History Buffer at all times (10_state.md R40, 20_memory.md R48). -/
def wrColors (s : State) : BitVec (24 * s.cfg.numLeds) := BitVec.ofNat _ (packStrip s.hist)

/-- `wr_brightness`: the constant `BRIGHTNESS` at all times; the block never applies it (10_state.md R40,
43_strip_writer.md R104). -/
def wrBrightness (s : State) : Level := s.cfg.brightness

/-- The status outputs of 10_state.md R43, the fields of the source's status line among them (60_exceptions.md R129). -/
structure StatusOutputs where
  halted : Bool
  faultCode : FaultBits
  faultOp : OpCode
  dbgOp : OpCode
  dbgTime : Word32
  dbgColor : Option Color
  dbgDelay : Word32
  dbgPhase : Sample
  dbgShape : Sample
  deriving DecidableEq, Repr

/-- What the status outputs show (10_state.md R43). `dbg_color` is `hist[0]`, which exists in every state the machine
reaches, since NUM_LEDS ≥ 1. -/
def statusOutputs (s : State) : StatusOutputs :=
  { halted := Machine.halted s
    faultCode := s.faultCode
    faultOp := s.faultOp
    dbgOp := s.op
    dbgTime := s.time
    dbgColor := histEntry s 0
    dbgDelay := s.delayMs
    dbgPhase := s.phaseS
    dbgShape := s.shapeS }

end Sys2Proof.Machine
end

