-- ==== Sys2Proof/Machine/Trace.lean ====
section
/-! DEFINITION. The trace of a run (30_encoding.md R69, R71): which line each edge writes, the text of a line, the
encoding of a trace, and the reading of a trace text with its refusals by name and line (R72). -/

namespace Sys2Proof.Machine

/-- The `<response>` of a trace line (R69). -/
inductive Response where
  /-- Nothing is written after the mnemonic. -/
  | plain
  /-- `<- v`: a conversion that completes. -/
  | ack (v : Nat)
  /-- `!fault`: a conversion that faults. -/
  | fault
  /-- `ok`: a strip write that completes. -/
  | ok
  /-- `!err`: a strip write that fails, under either policy. -/
  | err
  /-- `tick`: WAIT_TICK counts one millisecond. -/
  | tick
  /-- `exit`: WAIT_TICK exits. -/
  | exit
  deriving DecidableEq, Repr

/-- A line of a trace (R69). -/
structure TraceLine where
  instr : Instr
  response : Response
  deriving DecidableEq, Repr

/-- The response of a SAMPLE step on this edge; none on a hold edge (R69, 40_sample_source.md R73). -/
def sampleResponse (s : State) : Option Response :=
  if s.now.smpFault then some .fault
  else if s.now.smpAck then some (.ack s.sampleIn)
  else none

/-- The response of WRITE_STRIP on this edge; none on a hold edge (R69, 43_strip_writer.md R101). -/
def stripResponse (s : State) : Option Response :=
  if s.now.wrErr then some .err
  else if s.now.wrDone then some .ok
  else none

/-- The response of WAIT_TICK on this edge; none on a hold edge (R69, 44_frame_scheduler.md R111). -/
def tickResponse (s : State) : Option Response :=
  if s.remaining = 0#32 then some .exit
  else if s.now.msTick then some .tick
  else none

/-- The response of a step on this edge; none if the step holds (R69). HALTED changes no state, so it writes no line
(44_frame_scheduler.md R116). -/
def responseOf (i : Instr) (s : State) : Option Response :=
  match i with
  | .sampleSpeed | .sampleShape | .samplePhase | .sampleRed | .sampleGreen | .sampleBlue => sampleResponse s
  | .writeStrip => stripResponse s
  | .waitTick => tickResponse s
  | .halted => none
  | .init | .deriveDelay | .synthRed | .synthGreen | .synthBlue | .pushFront => some .plain

/-- The line this edge writes: "Exactly one line is written per step that changes state; edges on which a step holds are
not written" (R69). A reset edge is no step, and a refused state takes none. -/
def traceLine (s : State) : Option TraceLine :=
  if s.now.rst = true ∨ s.resetSeen = false ∨ s.faultCode = FaultCode.unsupported then none
  else s.instr?.bind (fun i => (responseOf i s).map (fun r => ⟨i, r⟩))

/-- The trace of the next k edges. -/
def traceRun : Nat → State → List TraceLine
  | 0, _ => []
  | k + 1, s =>
    match step s with
    | .next t => (traceLine s).toList ++ traceRun k t
    | .fault _ => []
    | .refused _ => []

/-- The encoding of a trace: its sequence of op codes (R69). -/
def traceEncoding (ls : List TraceLine) : List OpCode := encodeAll (ls.map TraceLine.instr)

/-- `FRAME`: the step sequence of one fault-free frame whose delay is d milliseconds (R71). -/
def frameSteps (d : Nat) : List Instr :=
  [.sampleSpeed, .deriveDelay, .sampleShape, .samplePhase, .sampleRed, .sampleGreen, .sampleBlue, .synthRed, .synthGreen,
   .synthBlue, .pushFront, .writeStrip] ++ List.replicate d .waitTick ++ [.waitTick]

/-- An op code as a hex digit, upper case (R69). -/
def hexDigit (c : OpCode) : Char :=
  if c.toNat < 10 then Char.ofNat (48 + c.toNat) else Char.ofNat (55 + c.toNat)

/-- A number in decimal (R69, R70). -/
def decimal (v : Nat) : List Char := Nat.toDigits 10 v

/-- The text of a response, with the blank before it. -/
def Response.text : Response → List Char
  | .plain => []
  | .ack v => " <- ".toList ++ decimal v
  | .fault => " !fault".toList
  | .ok => " ok".toList
  | .err => " !err".toList
  | .tick => " tick".toList
  | .exit => " exit".toList

/-- The text of a trace line, `<code> <MNEMONIC> [<response>]` (R69). -/
def TraceLine.text (l : TraceLine) : List Char :=
  ['0', 'x', hexDigit (encode l.instr), ' '] ++ l.instr.mnemonic.toList ++ l.response.text

/-- Why a line of a trace or stimulus text is refused (R72). -/
inductive TextError where
  /-- A mnemonic, configuration or keyword that no rule defines. -/
  | unknownName
  /-- The reserved code 0xE (R62). -/
  | reservedCode
  /-- A code that is not the mnemonic's (R61). -/
  | wrongCode
  /-- A sample value outside [0, FULL_SCALE]. -/
  | sampleOutOfRange
  /-- A field that names no channel of the six, or not in R70's place. -/
  | unknownChannel
  /-- A response that the step has not (R69), or text of another form. -/
  | malformed
  deriving DecidableEq, Repr

/-- Cut a line at blanks; several blanks count as one (log 15). -/
def tokensFrom (cur : List Char) : List Char → List (List Char)
  | [] => if cur.isEmpty then [] else [cur.reverse]
  | c :: cs =>
    if c = ' ' then
      if cur.isEmpty then tokensFrom [] cs else cur.reverse :: tokensFrom [] cs
    else tokensFrom (c :: cur) cs

/-- The blank-separated words of a line. -/
def tokens (line : List Char) : List (List Char) := tokensFrom [] line

/-- One decimal digit. -/
def digitValue (c : Char) : Option Nat :=
  if 48 ≤ c.toNat ∧ c.toNat ≤ 57 then some (c.toNat - 48) else none

/-- The digits of a decimal number, read after the value of those before them. -/
def numberFrom (acc : Nat) : List Char → Option Nat
  | [] => some acc
  | c :: cs => (digitValue c).bind (fun d => numberFrom (10 * acc + d) cs)

/-- A decimal number: one digit or more. -/
def number (cs : List Char) : Option Nat := if cs.isEmpty then none else numberFrom 0 cs

/-- A sample value in [0, FULL_SCALE], refused by name otherwise (R72). -/
def sampleValue (p : Params) (cs : List Char) : Except TextError Nat :=
  match number cs with
  | none => .error .malformed
  | some v => if v ≤ p.fullScale then .ok v else .error .sampleOutOfRange

/-- The step a trace line's code and mnemonic name, both required to agree (R61, R69, R72). -/
def stepOf (code name : List Char) : Except TextError Instr :=
  if code = "0xE".toList then .error .reservedCode
  else
    match Instr.all.find? (fun i => decide (i.mnemonic.toList = name)) with
    | none => .error .unknownName
    | some i => if code = ['0', 'x', hexDigit (encode i)] then .ok i else .error .wrongCode

/-- The response of a trace line, as far as its step admits it (R69). -/
def responseFrom (p : Params) (i : Instr) (ws : List (List Char)) : Except TextError Response :=
  match i, ws with
  | .init, [] | .deriveDelay, [] | .synthRed, [] | .synthGreen, [] | .synthBlue, [] | .pushFront, [] => .ok .plain
  | .writeStrip, [w] =>
    if w = "ok".toList then .ok .ok else if w = "!err".toList then .ok .err else .error .malformed
  | .waitTick, [w] =>
    if w = "tick".toList then .ok .tick else if w = "exit".toList then .ok .exit else .error .malformed
  | i, [w] => if i.isSample && decide (w = "!fault".toList) then .ok .fault else .error .malformed
  | i, [a, v] =>
    if i.isSample && decide (a = "<-".toList) then (sampleValue p v).map .ack else .error .malformed
  | _, _ => .error .malformed

/-- A line of a trace text: a trace line, or the abbreviation FRAME (R71). -/
inductive TraceText where
  | line (l : TraceLine)
  | frame
  deriving DecidableEq, Repr

/-- Read one line of a trace text; a comment runs from `;` to the end (R69). -/
def parseTraceLine (p : Params) (line : List Char) : Except TextError TraceText :=
  match tokens (line.takeWhile (· ≠ ';')) with
  | code :: name :: ws =>
    match stepOf code name with
    | .error e => .error e
    | .ok i => (responseFrom p i ws).map (fun r => .line ⟨i, r⟩)
  | [w] => if w = "FRAME".toList then .ok .frame else .error .malformed
  | [] => .error .malformed

/-- Read lines, the first of them having number n; the first ill-formed line is refused by its number and the name of
what is wrong ("a tool must refuse it by name and line", R72). -/
def parseLines {α : Type} (parse : List Char → Except TextError α) (n : Nat) :
    List (List Char) → Except (Nat × TextError) (List α)
  | [] => .ok []
  | l :: ls =>
    match parse l with
    | .error e => .error (n, e)
    | .ok a => (parseLines parse (n + 1) ls).map (a :: ·)

/-- Read a trace text, line 1 first. -/
def parseTrace (p : Params) (ls : List (List Char)) : Except (Nat × TextError) (List TraceText) :=
  parseLines (parseTraceLine p) 1 ls

end Sys2Proof.Machine
end

