-- ==== Sys2Proof/Machine/Stimulus.lean ====
section
/-! DEFINITION. Stimulus scripts (30_encoding.md R70, R72): the input edges a script stands for, and the reading of a
script's text with its refusals by name and line. Hold edges are not written (R69, R70), so the edges of a script hold
none. -/

namespace Sys2Proof.Machine

/-- The completing edge of a conversion (40_sample_source.md R73). -/
def sampleEdge : Answer → PortInputs
  | .value v => { PortInputs.idle with smpAck := true, smpData := v }
  | .fault => { PortInputs.idle with smpFault := true }

/-- The completing edge of a strip write (43_strip_writer.md R101). -/
def writeEdge : WriteAnswer → PortInputs
  | .ok => { PortInputs.idle with wrDone := true }
  | .err => { PortInputs.idle with wrErr := true }

/-- An edge with a millisecond tick. -/
def tickEdge : PortInputs := { PortInputs.idle with msTick := true }

/-- The edges from an answer on: after `!fault` the rest of the frame is ignored (R70). -/
def answerThen (a : Answer) (rest : List PortInputs) : List PortInputs :=
  match a with
  | .value _ => sampleEdge a :: rest
  | .fault => [sampleEdge a]

/-- The delay a speed answer gives (44_frame_scheduler.md R108); a conversion that faults has none. -/
def delayOfAnswer (b : Build) : Answer → Nat
  | .value v => delayOf b v
  | .fault => 0

/-- WAIT_TICK's edges: "the time base delivers one counted tick per WAIT_TICK millisecond" (R70), then the exit edge. -/
def waitEdges (d : Nat) : List PortInputs := List.replicate d tickEdge ++ [PortInputs.idle]

/-- The edges of WRITE_STRIP and what follows; after an `!err` that halts, nothing (R70, 43_strip_writer.md R102). -/
def writeThen (b : Build) (w : WriteAnswer) (rest : List PortInputs) : List PortInputs :=
  match w, b.txFaultPolicy with
  | .err, .halt => [writeEdge w]
  | _, _ => writeEdge w :: rest

/-- The edges of one frame line, from SAMPLE_SPEED on: the steps that read no input take an idle edge each. -/
def frameEdges (b : Build) (f : FrameLine) : List PortInputs :=
  answerThen f.speed <| PortInputs.idle ::
    (answerThen f.shape <| answerThen f.phase <| answerThen f.red <| answerThen f.green <| answerThen f.blue <|
      List.replicate 4 PortInputs.idle ++ writeThen b f.write (waitEdges (delayOfAnswer b f.speed)))

/-- The edges of a script run from the state after a reset edge: INIT's edge, then the frames'. -/
def scriptEdges (b : Build) (fs : List FrameLine) : List PortInputs :=
  PortInputs.idle :: (fs.map (frameEdges b)).flatten

/-- `<name>=<text>` with the given name (R70). -/
def fieldText (name : String) (w : List Char) : Except TextError (List Char) :=
  let key := name.toList ++ ['=']
  if w.take key.length = key then .ok (w.drop key.length) else .error .unknownChannel

/-- A sample field of a frame line (R70, R72). -/
def answerField (p : Params) (name : String) (w : List Char) : Except TextError Answer :=
  match fieldText name w with
  | .error e => .error e
  | .ok t => if t = "!fault".toList then .ok .fault else (sampleValue p t).map .value

/-- The write field of a frame line (R70). -/
def writeField (w : List Char) : Except TextError WriteAnswer :=
  match fieldText "write" w with
  | .error e => .error e
  | .ok t =>
    if t = "ok".toList then .ok .ok else if t = "!err".toList then .ok .err else .error .malformed

/-- Read a `frame` line (R70, R72). A field after the frame's first `!fault` has no effect on the edges (R70, `answerThen`),
but its form and its range are checked all the same, and the line is refused for it: R70 says that such a field is
ignored, R72 that a text naming a value out of range is refused, and the spec does not say which holds there.
DESIGN CHOICE (log 20), safe. -/
def parseFrameLine (p : Params) (line : List Char) : Except TextError FrameLine :=
  match tokens line with
  | [k, sp, sh, ph, rd, gr, bl, wr] =>
    if k = "frame".toList then do
      let speed ← answerField p "speed" sp
      let shape ← answerField p "shape" sh
      let phase ← answerField p "phase" ph
      let red ← answerField p "red" rd
      let green ← answerField p "green" gr
      let blue ← answerField p "blue" bl
      let write ← writeField wr
      return ⟨speed, shape, phase, red, green, blue, write⟩
    else .error .unknownName
  | _ => .error .malformed

/-- Read a `config <TCn>` line (R70). -/
def parseConfigLine (line : List Char) : Except TextError TestConfig :=
  match tokens line with
  | [k, n] =>
    if k ≠ "config".toList then .error .unknownName
    else if n = "TC1".toList then .ok .tc1
    else if n = "TC2".toList then .ok .tc2
    else if n = "TC3".toList then .ok .tc3
    else if n = "TC4".toList then .ok .tc4
    else .error .unknownName
  | _ => .error .malformed

/-- Read a stimulus script: a config line, then frame lines (R70), refused by name and line (R72). -/
def parseScript : List (List Char) → Except (Nat × TextError) Script
  | [] => .error (1, .malformed)
  | l :: ls =>
    match parseConfigLine l with
    | .error e => .error (1, e)
    | .ok c => (parseLines (parseFrameLine c.params) 2 ls).map (fun fs => ⟨c, fs⟩)

end Sys2Proof.Machine
end

