-- ==== Sys2Proof/Safety.lean ====
section
/-! DEFINITION. The terms claims are stated in: the invariant of the machine, the inputs of the coming edges, what the
environment does in a fault-free frame, and the spec's formulas written a second time, with divisions, apart from the
machine's own functions. -/

namespace Sys2Proof.Machine

/-- The values on the input ports j edges from now: the listed ones, or the free ones of that edge's number (log 2). -/
def State.inputAt (s : State) (j : Nat) : PortInputs :=
  match s.stim[j]? with
  | some e => e
  | none => Config.drawnInputs (s.edge + j)

/-- The state k edges later if the block's own state has not changed. -/
def State.after (s : State) (k : Nat) : State := { s with stim := s.stim.drop k, edge := s.edge + k }

/-- The codes of the steps from SAMPLE_SHAPE to WRITE_STRIP: those between DERIVE_DELAY and WAIT_TICK in a frame. -/
def inFrameBody (op : OpCode) : Prop := 0x3 ≤ op.toNat ∧ op.toNat ≤ 0xC

/-- What holds in every state the machine reaches after a reset edge. -/
structure Inv (s : State) : Prop where
  /-- A reset edge has come (70_reset_and_hazards.md R137). -/
  reset_seen : s.resetSeen = true
  /-- The History Buffer has NUM_LEDS entries (10_state.md R27). -/
  hist_length : Memory.wf s.cfg s.hist = true
  /-- Every sample register holds an N-bit value (00_scope.md R8, 40_sample_source.md R81). -/
  samples : s.speedS < 2 ^ s.cfg.sampleBits ∧ s.shapeS < 2 ^ s.cfg.sampleBits ∧ s.phaseS < 2 ^ s.cfg.sampleBits ∧
    s.redS < 2 ^ s.cfg.sampleBits ∧ s.greenS < 2 ^ s.cfg.sampleBits ∧ s.blueS < 2 ^ s.cfg.sampleBits
  /-- `op` is never the reserved code (30_encoding.md R62). -/
  op_defined : s.op ≠ 0xE#4
  /-- `fault_code` is non-zero exactly when `op = HALTED` (10_state.md R31). -/
  fault_iff_halted : s.faultCode ≠ 0#2 ↔ s.op = 0xF#4
  /-- What a recorded fault says (60_exceptions.md R118 to R122). -/
  fault_record : (s.faultCode = 0#2 ∧ s.faultOp = 0x0#4) ∨
    (s.faultCode = 1#2 ∧ s.faultOp ∈ [0x1#4, 0x3#4, 0x4#4, 0x5#4, 0x6#4, 0x7#4]) ∨
    (s.faultCode = 2#2 ∧ s.faultOp = 0xC#4 ∧ s.cfg.txFaultPolicy = .halt)
  /-- `delay_ms` is 0 or in [MIN_DELAY, MAX_DELAY] (10_state.md R29). -/
  delay_range : s.delayMs = 0 ∨ (s.cfg.minDelay ≤ s.delayMs.toNat ∧ s.delayMs.toNat ≤ s.cfg.maxDelay)
  /-- From DERIVE_DELAY on, `delay_ms` is in [MIN_DELAY, MAX_DELAY] (10_state.md R29). -/
  delay_written : inFrameBody s.op ∨ s.op = 0xD#4 → s.cfg.minDelay ≤ s.delayMs.toNat ∧ s.delayMs.toNat ≤ s.cfg.maxDelay
  /-- No tick is counted before WAIT_TICK (44_frame_scheduler.md R112). -/
  remaining_full : inFrameBody s.op → s.remaining = s.delayMs
  /-- WAIT_TICK only counts down (10_state.md R30). -/
  remaining_le : s.remaining.toNat ≤ s.delayMs.toNat
  /-- Between frames nothing remains (44_frame_scheduler.md R114). -/
  remaining_none : s.op = 0x0#4 ∨ s.op = 0x1#4 ∨ s.op = 0x2#4 → s.remaining = 0
  /-- INIT is only entered by reset, so its state is the reset state (44_frame_scheduler.md R107). -/
  init_is_reset : s.op = 0x0#4 → s = State.afterReset s.cfg s.stim s.edge

/-- The successor on completion (44_frame_scheduler.md R106); HALTED has none. -/
def successor : Instr → Option Instr
  | .init => some .sampleSpeed
  | .sampleSpeed => some .deriveDelay
  | .deriveDelay => some .sampleShape
  | .sampleShape => some .samplePhase
  | .samplePhase => some .sampleRed
  | .sampleRed => some .sampleGreen
  | .sampleGreen => some .sampleBlue
  | .sampleBlue => some .synthRed
  | .synthRed => some .synthGreen
  | .synthGreen => some .synthBlue
  | .synthBlue => some .pushFront
  | .pushFront => some .writeStrip
  | .writeStrip => some .waitTick
  | .waitTick => some .sampleSpeed
  | .halted => none

/-- The condition of the table of 44_frame_scheduler.md R106, "completes when", without the fault cases. -/
def completes (i : Instr) (s : State) : Prop :=
  match i with
  | .sampleSpeed | .sampleShape | .samplePhase | .sampleRed | .sampleGreen | .sampleBlue =>
    s.now.smpAck = true ∧ s.now.smpFault = false
  | .writeStrip =>
    (s.now.wrDone = true ∧ s.now.wrErr = false) ∨ (s.now.wrErr = true ∧ s.cfg.txFaultPolicy = .skip)
  | .waitTick => s.remaining = 0#32
  | .halted => False
  | .init | .deriveDelay | .synthRed | .synthGreen | .synthBlue | .pushFront => True

/-- An edge on which no collaborator reports a failure that this build would take as a fault (60_exceptions.md R125). -/
def noFailure (b : Build) (e : PortInputs) : Prop := e.smpFault = false ∧ (e.wrErr = false ∨ b.txFaultPolicy = .skip)

/-- No edge of the list is a reset edge. -/
def noReset (l : List PortInputs) : Prop := ∀ e ∈ l, e.rst = false

/-- The edges of a conversion that answers v: hold edges, any number, then the completing edge
(40_sample_source.md R73). -/
def Conversion (b : Build) (v : Nat) (l : List PortInputs) : Prop :=
  ∃ holds e, l = holds ++ [e] ∧
    (∀ h ∈ holds, h.rst = false ∧ h.smpAck = false ∧ h.smpFault = false) ∧
    e.rst = false ∧ e.smpAck = true ∧ e.smpFault = false ∧ e.smpData % 2 ^ b.sampleBits = v

/-- The edges of a successful strip write: hold edges, any number, then the completing edge (43_strip_writer.md R101). -/
def Transmission (l : List PortInputs) : Prop :=
  ∃ holds e, l = holds ++ [e] ∧
    (∀ h ∈ holds, h.rst = false ∧ h.wrDone = false ∧ h.wrErr = false) ∧
    e.rst = false ∧ e.wrDone = true ∧ e.wrErr = false

/-- n edges without reset, whatever the other inputs: those of steps that read no input. -/
def Unread (n : Nat) (l : List PortInputs) : Prop := l.length = n ∧ noReset l

/-- The edges on which WAIT_TICK counts d milliseconds: d ticks, the last edge one of them, any number of edges without a
tick between (44_frame_scheduler.md R111). -/
def Counting (d : Nat) (l : List PortInputs) : Prop :=
  noReset l ∧ (l.filter (fun e => e.msTick)).length = d ∧ ∀ e, l.getLast? = some e → e.msTick = true

/-- The sample answers of one frame: N-bit values (44_frame_scheduler.md R114). -/
structure FrameAnswers where
  speed : Nat
  shape : Nat
  phase : Nat
  red : Nat
  green : Nat
  blue : Nat
  deriving DecidableEq, Repr

/-- `delay_of`, in the words of 44_frame_scheduler.md R108. -/
def specDelay (p : Params) (x : Nat) : Nat := min (max ((x - p.offset) * p.scale) p.minDelay) p.maxDelay

/-- `lut(wave_index(time, k, phase_s))`, in the words of 41_waveform_synthesis.md R83 and R85. -/
def specWave (p : Params) (time k phase : Nat) : Nat :=
  (p.wave.getD ((time + k * (phase / 8)) % p.tableLen) 0).toNat

/-- `((sine_component + dc_component) >> K3)`, before the reduction to 8 bits (41_waveform_synthesis.md R87). -/
def specSum (p : Params) (ch w s : Nat) : Nat :=
  (ch * w * s / 2 ^ p.k1 + ch * (2 ^ p.sampleBits - 1 - s) / 2 ^ p.k2) / 2 ^ p.k3

/-- `channel_value` (41_waveform_synthesis.md R87). -/
def specChannel (p : Params) (time k ch phase s : Nat) : Nat := specSum p ch (specWave p time k phase) s % 256

/-- The color of a frame whose SYNTH steps see `time` (44_frame_scheduler.md R114, 20_memory.md R47). -/
def specColor (p : Params) (time : Nat) (a : FrameAnswers) : Color :=
  BitVec.ofNat 24 (specChannel p time 0 a.red a.phase a.shape * 65536 + specChannel p time 1 a.green a.phase a.shape * 256 +
    specChannel p time 2 a.blue a.phase a.shape)

/-- The edges of a fault-free frame up to the completion of its strip write, from SAMPLE_SPEED on. -/
def FrameHead (b : Build) (a : FrameAnswers) (l : List PortInputs) : Prop :=
  ∃ c1 x c2 c3 c4 c5 c6 y w, l = c1 ++ x ++ c2 ++ c3 ++ c4 ++ c5 ++ c6 ++ y ++ w ∧
    Conversion b a.speed c1 ∧ Unread 1 x ∧ Conversion b a.shape c2 ∧ Conversion b a.phase c3 ∧
    Conversion b a.red c4 ∧ Conversion b a.green c5 ∧ Conversion b a.blue c6 ∧ Unread 4 y ∧ Transmission w

/-- The edges of a whole fault-free frame with a successful write (44_frame_scheduler.md R114): any number of hold edges in
every handshake and between the ticks. -/
def FaultFreeFrame (b : Build) (a : FrameAnswers) (l : List PortInputs) : Prop :=
  ∃ h t x, l = h ++ t ++ x ∧ FrameHead b a h ∧ Counting (specDelay b.toParams a.speed) t ∧ Unread 1 x

/-- The colors of the frames of a run that starts a frame at `time` (44_frame_scheduler.md R114, R115). -/
def specColors (p : Params) : Nat → List FrameAnswers → List Color
  | _, [] => []
  | time, a :: as => specColor p time a :: specColors p ((time + specDelay p a.speed) % 2 ^ 32) as

/-- The sum of the delays of the frames, in milliseconds (44_frame_scheduler.md R115). -/
def specTotalDelay (p : Params) (as : List FrameAnswers) : Nat := (as.map (fun a => specDelay p a.speed)).sum

/-- A run of fault-free frames, each with its edges. -/
def FaultFreeFrames (b : Build) (fs : List (FrameAnswers × List PortInputs)) : Prop :=
  ∀ f ∈ fs, FaultFreeFrame b f.1 f.2

/-- A line that a trace can hold: the response is one its step writes, and a sample is in [0, FULL_SCALE]
(30_encoding.md R69, R72). -/
def TraceLine.wellFormed (p : Params) (l : TraceLine) : Prop :=
  match l.response with
  | .plain => l.instr ∈ [Instr.init, .deriveDelay, .synthRed, .synthGreen, .synthBlue, .pushFront]
  | .ack v => l.instr.isSample = true ∧ v ≤ p.fullScale
  | .fault => l.instr.isSample = true
  | .ok | .err => l.instr = .writeStrip
  | .tick | .exit => l.instr = .waitTick

end Sys2Proof.Machine
end

