-- ==== Sys2Proof/Certificates/Slice0/Obligations.lean ====
section
/-! DEFINITION. The statements for the provers, each `def Obligations.<Name> : Prop`, read from the numbered rules of
spec/. Every statement is about every build (`s.cfg`) and every environment (`s.stim`), unless it says otherwise. A next
state written as a record update is the frame as well: every field it does not name is unchanged. -/

open Sys2Proof Sys2Proof.Machine

/-! ## Encodings -/

/-- The op codes of 30_encoding.md R61 decode to their steps, each step has R61's mnemonic, and R62's code decodes to none. -/
def Obligations.OpCodesDecodeToTheirSteps : Prop :=
  decodeOp 0x0#4 = .ok .init ∧ decodeOp 0x1#4 = .ok .sampleSpeed ∧ decodeOp 0x2#4 = .ok .deriveDelay ∧
  decodeOp 0x3#4 = .ok .sampleShape ∧ decodeOp 0x4#4 = .ok .samplePhase ∧ decodeOp 0x5#4 = .ok .sampleRed ∧
  decodeOp 0x6#4 = .ok .sampleGreen ∧ decodeOp 0x7#4 = .ok .sampleBlue ∧ decodeOp 0x8#4 = .ok .synthRed ∧
  decodeOp 0x9#4 = .ok .synthGreen ∧ decodeOp 0xA#4 = .ok .synthBlue ∧ decodeOp 0xB#4 = .ok .pushFront ∧
  decodeOp 0xC#4 = .ok .writeStrip ∧ decodeOp 0xD#4 = .ok .waitTick ∧ decodeOp 0xF#4 = .ok .halted ∧
  decodeOp 0xE#4 = .error .reservedOp ∧
  Instr.all.map (fun i => (encode i, i.mnemonic)) =
    [(0x0#4, "INIT"), (0x1#4, "SAMPLE_SPEED"), (0x2#4, "DERIVE_DELAY"), (0x3#4, "SAMPLE_SHAPE"), (0x4#4, "SAMPLE_PHASE"),
     (0x5#4, "SAMPLE_RED"), (0x6#4, "SAMPLE_GREEN"), (0x7#4, "SAMPLE_BLUE"), (0x8#4, "SYNTH_RED"), (0x9#4, "SYNTH_GREEN"),
     (0xA#4, "SYNTH_BLUE"), (0xB#4, "PUSH_FRONT"), (0xC#4, "WRITE_STRIP"), (0xD#4, "WAIT_TICK"), (0xF#4, "HALTED")]

/-- Decode and encode agree on every sequence of steps (30_encoding.md R61, R62, R68, R69): a sequence's codes read back as
the sequence; a sequence of codes that reads as steps is their encoding; and it reads as steps unless it holds 0xE. -/
def Obligations.StepSequenceEncodingRoundTrip : Prop :=
  (∀ is : List Instr, decodeAll (encodeAll is) = .ok is) ∧
  (∀ (cs : List OpCode) (is : List Instr), decodeAll cs = .ok is → encodeAll is = cs) ∧
  (∀ cs : List OpCode, (∃ is, decodeAll cs = .ok is) ↔ 0xE#4 ∉ cs)

/-- The text of every well-formed trace line, with a sample of any value in [0, FULL_SCALE], reads back as that line
(30_encoding.md R69, R72). -/
def Obligations.TraceLineTextRoundTrip : Prop :=
  ∀ (p : Params) (l : TraceLine), l.wellFormed p → parseTraceLine p l.text = .ok (.line l)

/-- The decoder on whole bytes and on numbers: the 4 bits of the op code and nothing above them (30_encoding.md R68). That a
word with a higher bit set is refused is the model's choice (log 14). -/
def Obligations.OnlyFourBitsDecode : Prop :=
  (∀ (i : Instr) (nbits : Nat), decodeTableWord nbits (encode i).toNat = some i) ∧
  (∀ nbits w : Nat, 16 ≤ w → decodeTableWord nbits w = none) ∧
  (∀ (i : Instr) (n : Nat), decodeBytes (BitVec.ofNat 8 (encode i).toNat :: List.replicate n 0#8) = .ok i) ∧
  (∀ (c : BitVec 8) (rest : List (BitVec 8)) (i : Instr), decodeBytes (c :: rest) = .ok i → c.toNat < 16)

/-! ## The edge: reset, the decoded step, the refusals -/

/-- An edge without reset runs the step that `op` names, and then the environment moves on by one edge
(44_frame_scheduler.md R106). -/
def Obligations.EdgeRunsTheDecodedStep : Prop :=
  ∀ (s t : State) (i : Instr), s.now.rst = false → s.resetSeen = true → s.faultCode ≠ 3#2 → decodeOp s.op = .ok i →
    exec i s = .next t → step s = .next { t with stim := t.stim.tail, edge := t.edge + 1 }

/-- A step placed by `withFetchWord` is the one the next edge runs; the environment's fields are the model's own (log 11). -/
def Obligations.PlacedWordRunsNext : Prop :=
  ∀ (s t : State) (i : Instr) (nbits : Nat), s.faultCode ≠ 3#2 →
    exec i (s.withFetchWord nbits (encode i).toNat) = .next t →
    step (s.withFetchWord nbits (encode i).toNat) = .next { t with stim := t.stim.tail, edge := t.edge + 1 }

/-- A reset edge, from any state, HALTED and the state after power-on included: every field of S takes its reset value,
whatever the inputs are, `WAVE` and the build stay, and the outputs follow (70_reset_and_hazards.md R133). -/
def Obligations.ResetEdgeGivesResetValues : Prop :=
  ∀ s : State, s.now.rst = true → ∃ t, step s = .next t ∧
    t.op = 0x0#4 ∧ t.time = 0#32 ∧ t.speedS = 0 ∧ t.shapeS = 0 ∧ t.phaseS = 0 ∧ t.redS = 0 ∧ t.greenS = 0 ∧ t.blueS = 0 ∧
    t.rV = 0#8 ∧ t.gV = 0#8 ∧ t.bV = 0#8 ∧ t.hist = List.replicate s.cfg.numLeds 0x000000#24 ∧ t.delayMs = 0#32 ∧
    t.remaining = 0#32 ∧ t.faultCode = 0#2 ∧ t.faultOp = 0x0#4 ∧ t.cfg = s.cfg ∧
    smpReq t = false ∧ wrReq t = false ∧ halted t = false ∧ (wrColors t).toNat = 0

/-- However long reset is held, the state stays at the reset values; and a step leaves HALTED only by reset
(70_reset_and_hazards.md R134). The environment's fields move on as log 2 has them, the model's choice. -/
def Obligations.ResetMayBeHeld : Prop :=
  (∀ (k : Nat) (s : State), (∀ j, j ≤ k → (s.inputAt j).rst = true) →
    Host.Core.run Sys2Proof.core (k + 1) s = .next (State.afterReset s.cfg (s.stim.drop (k + 1)) (s.edge + (k + 1)))) ∧
  (∀ s t : State, s.op = 0xF#4 → step s = .next t → t.op ≠ 0xF#4 → s.now.rst = true)

/-- The first edge without reset after a reset edge executes INIT, the second SAMPLE_SPEED, at `time = 0`
(70_reset_and_hazards.md R135). -/
def Obligations.FirstEdgesAfterReset : Prop :=
  ∀ (b : Build) (e₁ e₂ : PortInputs) (rest : List PortInputs) (n : Nat), e₁.rst = false → e₂.rst = false →
    ∃ s₁ s₂, step (State.afterReset b (e₁ :: e₂ :: rest) n) = .next s₁ ∧
      s₁ = { State.afterReset b (e₂ :: rest) (n + 1) with op := 0x1#4 } ∧ s₁.time = 0#32 ∧
      exec .sampleSpeed s₁ = .next s₂ ∧ step s₁ = .next { s₂ with stim := rest, edge := n + 2 }

/-- `State.reset` holds the reset values of 70_reset_and_hazards.md R133. Its build and its environment are the model's own
choice (log 2, log 3), and nothing is said of them. -/
def Obligations.ResetStateHoldsResetValues : Prop :=
  State.reset.op = 0x0#4 ∧ State.reset.time = 0#32 ∧
  State.reset.speedS = 0 ∧ State.reset.shapeS = 0 ∧ State.reset.phaseS = 0 ∧
  State.reset.redS = 0 ∧ State.reset.greenS = 0 ∧ State.reset.blueS = 0 ∧
  State.reset.rV = 0#8 ∧ State.reset.gV = 0#8 ∧ State.reset.bV = 0#8 ∧
  State.reset.hist = List.replicate State.reset.cfg.numLeds 0#24 ∧
  State.reset.delayMs = 0#32 ∧ State.reset.remaining = 0#32 ∧
  State.reset.faultCode = 0#2 ∧ State.reset.faultOp = 0x0#4

/-- The reserved code has no meaning, and no edge ever leads to it, from any state (30_encoding.md R62). -/
def Obligations.ReservedOpRefusedAndNeverReached : Prop :=
  (∀ s : State, s.op = 0xE#4 → s.now.rst = false → ∃ r, step s = .refused r) ∧
  (∀ s t : State, step s = .next t → t.op ≠ 0xE#4)

/-- No edge produces fault code 3, from any state, and a state that holds it is refused on every edge but a reset edge
(60_exceptions.md R122; the refusal as log 8 has it). -/
def Obligations.UnsupportedOpNeverProduced : Prop :=
  (∀ s t : State, step s = .next t → t.faultCode ≠ 3#2) ∧
  (∀ s : State, s.faultCode = 3#2 → s.now.rst = false → ∃ r, step s = .refused r)

/-- Before the first reset edge after power-on, whatever the registers hold, no step rule is run; a reset edge initialises
the block (70_reset_and_hazards.md R137). `resetSeen` and the refusal's name are the model's choice (log 7). -/
def Obligations.PowerOnNeedsReset : Prop :=
  (∀ s : State, s.resetSeen = false → s.now.rst = false → step s = .refused .noResetSincePowerOn) ∧
  (∀ s : State, s.resetSeen = false → s.now.rst = true →
    step s = .next (State.afterReset s.cfg s.stim.tail (s.edge + 1)))

/-! ## Frame scheduler steps -/

/-- INIT goes to SAMPLE_SPEED and writes nothing else; it is never re-entered, no edge without reset leads to it
(44_frame_scheduler.md R107). -/
def Obligations.InitWritesOnlyOpAndIsNeverReentered : Prop :=
  (∀ s : State, exec .init s = .next { s with op := 0x1#4 }) ∧
  (∀ s t : State, s.now.rst = false → step s = .next t → t.op ≠ 0x0#4)

/-- DERIVE_DELAY gives `delay_ms` and `remaining` the clamped delay, exactly, with no loss in 32 bits, and goes to
SAMPLE_SHAPE (44_frame_scheduler.md R108, R109). -/
def Obligations.DeriveDelayLoadsTheDelay : Prop :=
  ∀ s : State, ∃ d : Word32,
    d.toNat = min (max ((s.speedS - s.cfg.offset) * s.cfg.scale) s.cfg.minDelay) s.cfg.maxDelay ∧
    exec .deriveDelay s = .next { s with delayMs := d, remaining := d, op := 0x3#4 }

/-- The delay law never underflows, is in range, is non-decreasing, and saturates (44_frame_scheduler.md R110). -/
def Obligations.DelayLawIsClampedAndMonotone : Prop :=
  ∀ s t : State, exec .deriveDelay s = .next t →
    (s.cfg.minDelay ≤ t.delayMs.toNat ∧ t.delayMs.toNat ≤ s.cfg.maxDelay) ∧
    (s.speedS ≤ s.cfg.offset → t.delayMs.toNat = s.cfg.minDelay) ∧
    (0 < s.cfg.scale → s.cfg.offset + (s.cfg.maxDelay + s.cfg.scale - 1) / s.cfg.scale ≤ s.speedS →
      t.delayMs.toNat = s.cfg.maxDelay) ∧
    (∀ (x : Nat) (u : State), s.speedS ≤ x → exec .deriveDelay { s with speedS := x } = .next u →
      t.delayMs.toNat ≤ u.delayMs.toNat)

/-- WAIT_TICK exits when nothing remains, whatever `ms_tick`; else it counts a tick, or holds (44_frame_scheduler.md R111,
R113). -/
def Obligations.WaitTickExitsCountsOrHolds : Prop :=
  ∀ s : State,
    (s.remaining = 0#32 → exec .waitTick s = .next { s with op := 0x1#4 }) ∧
    (s.remaining ≠ 0#32 → s.now.msTick = true →
      exec .waitTick s = .next { s with time := BitVec.ofNat 32 (s.time.toNat + 1),
                                        remaining := BitVec.ofNat 32 (s.remaining.toNat - 1) }) ∧
    (s.remaining ≠ 0#32 → s.now.msTick = false → exec .waitTick s = .next s)

/-- WAIT_TICK counts exactly the ticks it sees: over any edges without reset that end with the last counted tick, `time` has
grown and `remaining` has shrunk by their number, and nothing else has changed (44_frame_scheduler.md R111). -/
def Obligations.WaitTickCountsEveryTick : Prop :=
  ∀ (s : State) (d : Nat) (l rest : List PortInputs), s.op = 0xD#4 → s.resetSeen = true → s.faultCode ≠ 3#2 →
    s.stim = l ++ rest → Counting d l → d ≤ s.remaining.toNat →
    Host.Core.run Sys2Proof.core l.length s =
      .next { s with time := BitVec.ofNat 32 (s.time.toNat + d), remaining := BitVec.ofNat 32 (s.remaining.toNat - d),
                     stim := rest, edge := s.edge + l.length }

/-- HALTED changes no state, and its outputs are no request and `halted = 1` (44_frame_scheduler.md R116). -/
def Obligations.HaltedChangesNothing : Prop :=
  (∀ s : State, exec .halted s = .next s) ∧
  (∀ s : State, s.op = 0xF#4 → smpReq s = false ∧ wrReq s = false ∧ halted s = true)

/-- HALTED is permanent: however many edges without reset follow, only the environment moves on (44_frame_scheduler.md R116,
60_exceptions.md R124). -/
def Obligations.HaltedIsPermanent : Prop :=
  ∀ (k : Nat) (s : State), s.op = 0xF#4 → s.resetSeen = true → s.faultCode ≠ 3#2 →
    (∀ j, j < k → (s.inputAt j).rst = false) → Host.Core.run Sys2Proof.core k s = .next (s.after k)

/-! ## Sample source steps -/

/-- SAMPLE_SPEED, code 0x1, channel 3 (40_sample_source.md R75): the fault, the sample stored, or the hold. -/
def Obligations.SampleSpeedStoresFaultsOrHolds : Prop :=
  ∀ s : State,
    (s.op = 0x1#4 → decodeOp s.op = .ok .sampleSpeed ∧ smpReq s = true ∧ smpCh s = 3#3) ∧
    (s.now.smpFault = true →
      exec .sampleSpeed s = .next { s with faultCode := 1#2, faultOp := 0x1#4, op := 0xF#4 }) ∧
    (s.now.smpFault = false → s.now.smpAck = true →
      exec .sampleSpeed s = .next { s with speedS := s.now.smpData % 2 ^ s.cfg.sampleBits, op := 0x2#4 }) ∧
    (s.now.smpFault = false → s.now.smpAck = false → exec .sampleSpeed s = .next s)

/-- SAMPLE_SHAPE, code 0x3, channel 4 (40_sample_source.md R76). -/
def Obligations.SampleShapeStoresFaultsOrHolds : Prop :=
  ∀ s : State,
    (s.op = 0x3#4 → decodeOp s.op = .ok .sampleShape ∧ smpReq s = true ∧ smpCh s = 4#3) ∧
    (s.now.smpFault = true →
      exec .sampleShape s = .next { s with faultCode := 1#2, faultOp := 0x3#4, op := 0xF#4 }) ∧
    (s.now.smpFault = false → s.now.smpAck = true →
      exec .sampleShape s = .next { s with shapeS := s.now.smpData % 2 ^ s.cfg.sampleBits, op := 0x4#4 }) ∧
    (s.now.smpFault = false → s.now.smpAck = false → exec .sampleShape s = .next s)

/-- SAMPLE_PHASE, code 0x4, channel 5 (40_sample_source.md R77): the whole value is stored. -/
def Obligations.SamplePhaseStoresFaultsOrHolds : Prop :=
  ∀ s : State,
    (s.op = 0x4#4 → decodeOp s.op = .ok .samplePhase ∧ smpReq s = true ∧ smpCh s = 5#3) ∧
    (s.now.smpFault = true →
      exec .samplePhase s = .next { s with faultCode := 1#2, faultOp := 0x4#4, op := 0xF#4 }) ∧
    (s.now.smpFault = false → s.now.smpAck = true →
      exec .samplePhase s = .next { s with phaseS := s.now.smpData % 2 ^ s.cfg.sampleBits, op := 0x5#4 }) ∧
    (s.now.smpFault = false → s.now.smpAck = false → exec .samplePhase s = .next s)

/-- SAMPLE_RED, code 0x5, channel 0 (40_sample_source.md R78). -/
def Obligations.SampleRedStoresFaultsOrHolds : Prop :=
  ∀ s : State,
    (s.op = 0x5#4 → decodeOp s.op = .ok .sampleRed ∧ smpReq s = true ∧ smpCh s = 0#3) ∧
    (s.now.smpFault = true →
      exec .sampleRed s = .next { s with faultCode := 1#2, faultOp := 0x5#4, op := 0xF#4 }) ∧
    (s.now.smpFault = false → s.now.smpAck = true →
      exec .sampleRed s = .next { s with redS := s.now.smpData % 2 ^ s.cfg.sampleBits, op := 0x6#4 }) ∧
    (s.now.smpFault = false → s.now.smpAck = false → exec .sampleRed s = .next s)

/-- SAMPLE_GREEN, code 0x6, channel 1 (40_sample_source.md R79). -/
def Obligations.SampleGreenStoresFaultsOrHolds : Prop :=
  ∀ s : State,
    (s.op = 0x6#4 → decodeOp s.op = .ok .sampleGreen ∧ smpReq s = true ∧ smpCh s = 1#3) ∧
    (s.now.smpFault = true →
      exec .sampleGreen s = .next { s with faultCode := 1#2, faultOp := 0x6#4, op := 0xF#4 }) ∧
    (s.now.smpFault = false → s.now.smpAck = true →
      exec .sampleGreen s = .next { s with greenS := s.now.smpData % 2 ^ s.cfg.sampleBits, op := 0x7#4 }) ∧
    (s.now.smpFault = false → s.now.smpAck = false → exec .sampleGreen s = .next s)

/-- SAMPLE_BLUE, code 0x7, channel 2 (40_sample_source.md R80). -/
def Obligations.SampleBlueStoresFaultsOrHolds : Prop :=
  ∀ s : State,
    (s.op = 0x7#4 → decodeOp s.op = .ok .sampleBlue ∧ smpReq s = true ∧ smpCh s = 2#3) ∧
    (s.now.smpFault = true →
      exec .sampleBlue s = .next { s with faultCode := 1#2, faultOp := 0x7#4, op := 0xF#4 }) ∧
    (s.now.smpFault = false → s.now.smpAck = true →
      exec .sampleBlue s = .next { s with blueS := s.now.smpData % 2 ^ s.cfg.sampleBits, op := 0x8#4 }) ∧
    (s.now.smpFault = false → s.now.smpAck = false → exec .sampleBlue s = .next s)

/-! ## Waveform synthesis steps -/

/-- SYNTH_RED: `r_v` is the multiply-accumulate of `red_s`, `WAVE[time mod TABLE_LEN]` and `shape_s`, reduced to 8 bits
(41_waveform_synthesis.md R90, by R83, R85 and R87). -/
def Obligations.SynthRedComputesItsChannel : Prop :=
  ∀ s : State,
    let v : Nat :=
      ((s.redS * (s.cfg.wave.getD (s.time.toNat % s.cfg.tableLen) 0#8).toNat * s.shapeS / 2 ^ s.cfg.k1
        + s.redS * (2 ^ s.cfg.sampleBits - 1 - s.shapeS) / 2 ^ s.cfg.k2) / 2 ^ s.cfg.k3)
    exec .synthRed s = .next { s with rV := BitVec.ofNat 8 v, op := 0x9#4 }

/-- SYNTH_GREEN: index `(time + (phase_s >> 3)) mod TABLE_LEN` (41_waveform_synthesis.md R91, by R83, R85 and R87). -/
def Obligations.SynthGreenComputesItsChannel : Prop :=
  ∀ s : State,
    let v : Nat :=
      ((s.greenS * (s.cfg.wave.getD ((s.time.toNat + s.phaseS / 8) % s.cfg.tableLen) 0#8).toNat * s.shapeS / 2 ^ s.cfg.k1
        + s.greenS * (2 ^ s.cfg.sampleBits - 1 - s.shapeS) / 2 ^ s.cfg.k2) / 2 ^ s.cfg.k3)
    exec .synthGreen s = .next { s with gV := BitVec.ofNat 8 v, op := 0xA#4 }

/-- SYNTH_BLUE: index `(time + 2·(phase_s >> 3)) mod TABLE_LEN` (41_waveform_synthesis.md R92, by R83, R85 and R87). -/
def Obligations.SynthBlueComputesItsChannel : Prop :=
  ∀ s : State,
    let v : Nat :=
      ((s.blueS * (s.cfg.wave.getD ((s.time.toNat + 2 * (s.phaseS / 8)) % s.cfg.tableLen) 0#8).toNat * s.shapeS / 2 ^ s.cfg.k1
        + s.blueS * (2 ^ s.cfg.sampleBits - 1 - s.shapeS) / 2 ^ s.cfg.k2) / 2 ^ s.cfg.k3)
    exec .synthBlue s = .next { s with bV := BitVec.ofNat 8 v, op := 0xB#4 }

/-- The index is the exact sum's remainder, is in range, may be computed from the reduced time, and with TABLE_LEN = 256 is
the low 8 bits of the sum, whether or not the sum is first reduced modulo 2^32 (41_waveform_synthesis.md R83, R84). -/
def Obligations.WaveIndexReductions : Prop :=
  ∀ (b : Build) (time : Word32) (k phase : Nat),
    (waveIndex b time k phase).val = (time.toNat + k * (phase / 8)) % b.tableLen ∧
    (waveIndex b time k phase).val = (time.toNat % b.tableLen + k * (phase / 8)) % b.tableLen ∧
    (waveIndex b time k phase).val < b.tableLen ∧ b.wave.length = b.tableLen ∧
    (b.tableLen = 256 →
      (waveIndex b time k phase).val = (BitVec.ofNat 8 (time.toNat + k * (phase / 8))).toNat ∧
      (waveIndex b time k phase).val = ((time.toNat + k * (phase / 8)) % 2 ^ 32) % 256)

/-- The tick that wraps `time` moves the red index from 255 to 0: the next entry of a table of 256, and a jump over 256 to
359 of a table of 360; green and blue move in the same way, ahead of red by their offset (70_reset_and_hazards.md R140). -/
def Obligations.TimeWrapMovesTheIndexToZero : Prop :=
  ∀ s : State, s.time = 0xFFFFFFFF#32 → s.remaining ≠ 0#32 → s.now.msTick = true →
    ∃ t, exec .waitTick s = .next t ∧ t.time = 0#32 ∧ t.faultCode = s.faultCode ∧
      (waveIndex s.cfg s.time 0 s.phaseS).val = 255 ∧ (waveIndex t.cfg t.time 0 t.phaseS).val = 0 ∧
      ∀ k, (waveIndex s.cfg s.time k s.phaseS).val = (255 + k * (s.phaseS / 8)) % s.cfg.tableLen ∧
        (waveIndex t.cfg t.time k t.phaseS).val = k * (s.phaseS / 8) % s.cfg.tableLen

/-- The ends of the cross-fade, for the three channels: shape 0 is the DC path, free of time, phase and table; shape
FULL_SCALE is the waveform path (41_waveform_synthesis.md R93). -/
def Obligations.CrossFadeEnds : Prop :=
  ∀ s t : State,
    (exec .synthRed s = .next t → s.shapeS = 0 → t.rV.toNat =
      s.redS * (2 ^ s.cfg.sampleBits - 1) / 2 ^ s.cfg.k2 / 2 ^ s.cfg.k3 % 256) ∧
    (exec .synthGreen s = .next t → s.shapeS = 0 → t.gV.toNat =
      s.greenS * (2 ^ s.cfg.sampleBits - 1) / 2 ^ s.cfg.k2 / 2 ^ s.cfg.k3 % 256) ∧
    (exec .synthBlue s = .next t → s.shapeS = 0 → t.bV.toNat =
      s.blueS * (2 ^ s.cfg.sampleBits - 1) / 2 ^ s.cfg.k2 / 2 ^ s.cfg.k3 % 256) ∧
    (exec .synthRed s = .next t → s.shapeS = 2 ^ s.cfg.sampleBits - 1 → t.rV.toNat =
      s.redS * specWave s.cfg.toParams s.time.toNat 0 s.phaseS * (2 ^ s.cfg.sampleBits - 1)
        / 2 ^ s.cfg.k1 / 2 ^ s.cfg.k3 % 256) ∧
    (exec .synthGreen s = .next t → s.shapeS = 2 ^ s.cfg.sampleBits - 1 → t.gV.toNat =
      s.greenS * specWave s.cfg.toParams s.time.toNat 1 s.phaseS * (2 ^ s.cfg.sampleBits - 1)
        / 2 ^ s.cfg.k1 / 2 ^ s.cfg.k3 % 256) ∧
    (exec .synthBlue s = .next t → s.shapeS = 2 ^ s.cfg.sampleBits - 1 → t.bV.toNat =
      s.blueS * specWave s.cfg.toParams s.time.toNat 2 s.phaseS * (2 ^ s.cfg.sampleBits - 1)
        / 2 ^ s.cfg.k1 / 2 ^ s.cfg.k3 % 256)

/-- Hardware of the widths of 41_waveform_synthesis.md R88 computes the multiply-accumulate exactly: a (2N+8)-bit
three-operand multiplier, a 2N-bit multiplier and a (2N+9)-bit adder, with nothing lost before the reduction to 8 bits. -/
def Obligations.DatapathWidthsSuffice : Prop :=
  ∀ (b : Build) (ch s : Nat) (w : Level), ch ≤ b.fullScale → s ≤ b.fullScale →
    let n := b.sampleBits
    let sine : BitVec (2 * n + 8) := BitVec.ofNat _ ch * BitVec.ofNat _ w.toNat * BitVec.ofNat _ s
    let dc : BitVec (2 * n) := BitVec.ofNat _ ch * BitVec.ofNat _ (b.fullScale - s)
    let sum : BitVec (2 * n + 9) := (sine >>> b.k1).setWidth _ + (dc >>> b.k2).setWidth _
    sine.toNat = ch * w.toNat * s ∧ dc.toNat = ch * (b.fullScale - s) ∧
    sum.toNat = ch * w.toNat * s / 2 ^ b.k1 + ch * (b.fullScale - s) / 2 ^ b.k2 ∧
    mac b ch w s = (sum >>> b.k3).setWidth 8

/-- Where the final reduction removes nothing, the channel value is non-decreasing in the channel sample
(41_waveform_synthesis.md R94). -/
def Obligations.ChannelMonotoneWhereCalibrated : Prop :=
  ∀ (b : Build) (w : Level) (s ch ch' : Nat), ch ≤ ch' → ch' ≤ b.fullScale →
    specSum b.toParams ch' w.toNat s ≤ 255 → (mac b ch w s).toNat ≤ (mac b ch' w s).toNat

/-- With `phase_s < 8` the phase delay is 0 and the three indices are equal, and equal channel samples then give equal results
(41_waveform_synthesis.md R95). -/
def Obligations.SmallPhaseGivesEqualChannels : Prop :=
  ∀ s s₁ s₂ s₃ : State, s.phaseS < 8 → exec .synthRed s = .next s₁ → exec .synthGreen s₁ = .next s₂ →
    exec .synthBlue s₂ = .next s₃ →
    (phaseDelay s.phaseS = 0 ∧ waveIndex s.cfg s.time 0 s.phaseS = waveIndex s.cfg s.time 1 s.phaseS ∧
      waveIndex s.cfg s.time 1 s.phaseS = waveIndex s.cfg s.time 2 s.phaseS) ∧
    (s.redS = s.greenS → s.greenS = s.blueS → s₃.rV = s₃.gV ∧ s₃.gV = s₃.bV)

/-! ## History buffer step -/

/-- PUSH_FRONT: the color `{r_v, g_v, b_v}` goes in at the head, the oldest entry falls off (42_history_buffer.md R97). -/
def Obligations.PushFrontInsertsAtTheHead : Prop :=
  ∀ s : State, Memory.wf s.cfg s.hist = true → ∃ c : Color,
    c.extractLsb' 16 8 = s.rV ∧ c.extractLsb' 8 8 = s.gV ∧ c.extractLsb' 0 8 = s.bV ∧
    exec .pushFront s = .next { s with hist := c :: s.hist.dropLast, op := 0xC#4 }

/-- Entry by entry: the new color at 0, each old entry one place further, the length kept; and no other step changes the
buffer (42_history_buffer.md R98). -/
def Obligations.PushFrontShiftsEveryEntry : Prop :=
  (∀ s t : State, Memory.wf s.cfg s.hist = true → exec .pushFront s = .next t →
    histEntry t 0 = some (packColor s.rV s.gV s.bV) ∧
    (∀ i, 1 ≤ i → i < s.cfg.numLeds → histEntry t i = histEntry s (i - 1)) ∧
    (∀ i, s.cfg.numLeds ≤ i → histEntry t i = none) ∧ t.hist.length = s.cfg.numLeds) ∧
  (∀ (i : Instr) (s t : State), i ≠ .pushFront → exec i s = .next t → t.hist = s.hist)

/-! ## Strip writer step -/

/-- WRITE_STRIP: an error faults under HALT and goes on under SKIP, whatever `wr_done`; completion goes on; else the step
holds. No data register changes (43_strip_writer.md R102, R103). -/
def Obligations.WriteStripCompletesFaultsOrHolds : Prop :=
  ∀ s : State,
    (s.now.wrErr = true → s.cfg.txFaultPolicy = .halt →
      exec .writeStrip s = .next { s with faultCode := 2#2, faultOp := 0xC#4, op := 0xF#4 }) ∧
    (s.now.wrErr = true → s.cfg.txFaultPolicy = .skip → exec .writeStrip s = .next { s with op := 0xD#4 }) ∧
    (s.now.wrErr = false → s.now.wrDone = true → exec .writeStrip s = .next { s with op := 0xD#4 }) ∧
    (s.now.wrErr = false → s.now.wrDone = false → exec .writeStrip s = .next s)

/-- `wr_colors` is constant from the first edge of a request to its completion, however long the writer takes
(43_strip_writer.md R101, 70_reset_and_hazards.md R138). -/
def Obligations.StripFrameIsStable : Prop :=
  ∀ (k : Nat) (s t : State), s.op = 0xC#4 → s.resetSeen = true → s.faultCode ≠ 3#2 →
    (∀ j, j ≤ k → (s.inputAt j).rst = false) →
    (∀ j, j < k → (s.inputAt j).wrDone = false ∧ (s.inputAt j).wrErr = false) →
    Host.Core.run Sys2Proof.core k s = .next (s.after k) ∧ wrReq (s.after k) = true ∧
    (Host.Core.run Sys2Proof.core (k + 1) s = .next t →
      (wrColors t).toNat = (wrColors s).toNat ∧ wrBrightness t = wrBrightness s)

/-! ## Faults -/

/-- SAMPLE_FAULT: each SAMPLE step on an edge with `smp_fault = 1`, whatever `smp_ack` and `smp_data`, records its own code,
and writes nothing else (60_exceptions.md R120, 40_sample_source.md R74). -/
def Obligations.SampleFaultNamesItsStep : Prop :=
  ∀ (i : Instr) (s : State), i.isSample = true → s.now.smpFault = true →
    exec i s = .next { s with faultCode := 1#2, faultOp := encode i, op := 0xF#4 }

/-- A fault is precise: a step that enters HALTED writes the three fault fields and nothing else, with one of the two codes
and its own op code (60_exceptions.md R118, R119, R121). -/
def Obligations.FaultEntryIsPrecise : Prop :=
  ∀ (i : Instr) (s t : State), s.op = encode i → i ≠ .halted → exec i s = .next t → t.op = 0xF#4 →
    t = { s with faultCode := t.faultCode, faultOp := encode i, op := 0xF#4 } ∧
    ((t.faultCode = 1#2 ∧ i.isSample = true ∧ s.now.smpFault = true) ∨
     (t.faultCode = 2#2 ∧ i = .writeStrip ∧ s.now.wrErr = true ∧ s.cfg.txFaultPolicy = .halt))

/-- If the collaborators never report a failure, the block never halts; and at every SAMPLE step, and at WRITE_STRIP under
HALT, some environment brings about the fault (60_exceptions.md R125, 44_frame_scheduler.md R117). -/
def Obligations.HaltComesFromReportedFailures : Prop :=
  (∀ (k : Nat) (s t : State), Inv s → s.op ≠ 0xF#4 → (∀ j, j < k → noFailure s.cfg (s.inputAt j)) →
    Host.Core.run Sys2Proof.core k s = .next t → t.op ≠ 0xF#4 ∧ t.faultCode = 0#2) ∧
  (∀ (i : Instr) (s : State), i.isSample = true → s.op = encode i → s.resetSeen = true → s.faultCode ≠ 3#2 →
    ∃ (e : PortInputs) (t : State), step { s with stim := [e] } = .next t ∧ t.op = 0xF#4 ∧ t.faultCode = 1#2) ∧
  (∀ s : State, s.op = 0xC#4 → s.cfg.txFaultPolicy = .halt → s.resetSeen = true → s.faultCode ≠ 3#2 →
    ∃ (e : PortInputs) (t : State), step { s with stim := [e] } = .next t ∧ t.op = 0xF#4 ∧ t.faultCode = 2#2)

/-- A collaborator that never answers, or a time base that never ticks, makes the block hold for ever, with nothing changed
(60_exceptions.md R132). -/
def Obligations.NoAnswerHoldsForEver : Prop :=
  ∀ (k : Nat) (s : State), s.resetSeen = true → s.faultCode ≠ 3#2 → (∀ j, j < k → (s.inputAt j).rst = false) →
    ((∃ i : Instr, i.isSample = true ∧ s.op = encode i) →
      (∀ j, j < k → (s.inputAt j).smpAck = false ∧ (s.inputAt j).smpFault = false) →
      Host.Core.run Sys2Proof.core k s = .next (s.after k)) ∧
    (s.op = 0xC#4 → (∀ j, j < k → (s.inputAt j).wrDone = false ∧ (s.inputAt j).wrErr = false) →
      Host.Core.run Sys2Proof.core k s = .next (s.after k)) ∧
    (s.op = 0xD#4 → s.remaining ≠ 0#32 → (∀ j, j < k → (s.inputAt j).msTick = false) →
      Host.Core.run Sys2Proof.core k s = .next (s.after k))

/-! ## Rules over all steps -/

/-- The table of 44_frame_scheduler.md R106: a step that completes goes to its successor; one that does not and raises no
fault keeps `op`; and no step goes to INIT (R107). -/
def Obligations.SequencerFollowsTheTable : Prop :=
  ∀ (i : Instr) (s t : State), s.op = encode i → exec i s = .next t →
    (completes i s → ∃ n, successor i = some n ∧ t.op = encode n) ∧
    (¬ completes i s → t.op = s.op ∨ (t.op = 0xF#4 ∧ t.faultCode ≠ 0#2)) ∧
    t.op ≠ 0x0#4

/-- Which step may write which register (10_state.md R24 to R32): nobody else does, and no step writes the build or the
environment. -/
def Obligations.EachRegisterHasItsWriters : Prop :=
  ∀ (i : Instr) (s t : State), exec i s = .next t →
    (i ≠ .waitTick → t.time = s.time) ∧
    (i ≠ .sampleSpeed → t.speedS = s.speedS) ∧ (i ≠ .sampleShape → t.shapeS = s.shapeS) ∧
    (i ≠ .samplePhase → t.phaseS = s.phaseS) ∧ (i ≠ .sampleRed → t.redS = s.redS) ∧
    (i ≠ .sampleGreen → t.greenS = s.greenS) ∧ (i ≠ .sampleBlue → t.blueS = s.blueS) ∧
    (i ≠ .synthRed → t.rV = s.rV) ∧ (i ≠ .synthGreen → t.gV = s.gV) ∧ (i ≠ .synthBlue → t.bV = s.bV) ∧
    (i ≠ .pushFront → t.hist = s.hist) ∧ (i ≠ .deriveDelay → t.delayMs = s.delayMs) ∧
    (i ≠ .deriveDelay → i ≠ .waitTick → t.remaining = s.remaining) ∧
    (i.isSample = false → i ≠ .writeStrip → t.faultCode = s.faultCode ∧ t.faultOp = s.faultOp) ∧
    t.cfg = s.cfg ∧ t.resetSeen = s.resetSeen ∧ t.stim = s.stim ∧ t.edge = s.edge

/-- `ms_tick` is read by WAIT_TICK alone, and not on its exit edge: another tick value on this edge changes nothing else in
any other case (44_frame_scheduler.md R112). -/
def Obligations.TicksElsewhereAreNotCounted : Prop :=
  ∀ (i : Instr) (s t : State) (e : PortInputs) (rest : List PortInputs) (v : Bool),
    i ≠ .waitTick ∨ s.remaining = 0#32 → s.stim = e :: rest → exec i s = .next t →
    t.time = s.time ∧
    exec i { s with stim := { e with msTick := v } :: rest } = .next { t with stim := { e with msTick := v } :: rest }

/-- The invariant: what holds in every state the machine reaches is kept by every edge, whatever the inputs (10_state.md R27,
R29, R31, 30_encoding.md R62, 60_exceptions.md R118 to R122). -/
def Obligations.EveryStepKeepsTheInvariant : Prop :=
  ∀ s t : State, Inv s → step s = .next t → Inv t

/-- The state after reset meets the invariant, in every build and environment, `State.reset` among them (70_reset_and_hazards.md
R133). -/
def Obligations.ResetMeetsTheInvariant : Prop :=
  (∀ (b : Build) (l : List PortInputs) (n : Nat), Inv (State.afterReset b l n)) ∧ Inv State.reset

/-- A run from a state that meets the invariant is never refused, and stays within it: in particular from reset, in every
build and environment (10_state.md R37, 30_encoding.md R62, 60_exceptions.md R122). -/
def Obligations.RunsAreNeverRefused : Prop :=
  (∀ (k : Nat) (s : State), Inv s → ∃ t, Host.Core.run Sys2Proof.core k s = .next t ∧ Inv t) ∧
  (∀ (k : Nat) (b : Build) (l : List PortInputs) (n : Nat),
    ∃ t, Host.Core.run Sys2Proof.core k (State.afterReset b l n) = .next t ∧ t.op ≠ 0xE#4 ∧ t.faultCode ≠ 3#2)

/-! ## Ports and texts -/

/-- `smp_req` and `smp_ch` for every content of `op`; codes 6 and 7 are never driven (10_state.md R39, 30_encoding.md R63,
R64). -/
def Obligations.SampleRequestPort : Prop :=
  ∀ s : State,
    (smpReq s = true ↔ s.op ∈ [0x1#4, 0x3#4, 0x4#4, 0x5#4, 0x6#4, 0x7#4]) ∧
    (s.op = 0x5#4 → smpCh s = 0#3) ∧ (s.op = 0x6#4 → smpCh s = 1#3) ∧ (s.op = 0x7#4 → smpCh s = 2#3) ∧
    (s.op = 0x1#4 → smpCh s = 3#3) ∧ (s.op = 0x3#4 → smpCh s = 4#3) ∧ (s.op = 0x4#4 → smpCh s = 5#3) ∧
    (smpReq s = false → smpCh s = 0#3) ∧ smpCh s ≠ 6#3 ∧ smpCh s ≠ 7#3

/-- On `wr_colors`, slot i occupies bits 24·i+23 .. 24·i (20_memory.md R48). -/
def Obligations.StripPortLayout : Prop :=
  ∀ (s : State) (i : Nat), Memory.wf s.cfg s.hist = true → i < s.cfg.numLeds →
    histEntry s i = some ((wrColors s).extractLsb' (24 * i) 24)

/-- An edge without reset writes a trace line exactly if its step changes the block's state (30_encoding.md R69). -/
def Obligations.TraceLinePerStateChange : Prop :=
  ∀ s t : State, s.now.rst = false → step s = .next t → (traceLine s = none ↔ t = s.after 1)

/-- The edges a well-formed frame line stands for, without faults, are those of a fault-free frame (30_encoding.md R70). That
the unread inputs are 0 there is the model's choice (log 16). -/
def Obligations.FrameLineStandsForAFrame : Prop :=
  ∀ (b : Build) (a : FrameAnswers),
    a.speed ≤ b.fullScale → a.shape ≤ b.fullScale → a.phase ≤ b.fullScale → a.red ≤ b.fullScale →
    a.green ≤ b.fullScale → a.blue ≤ b.fullScale →
    FaultFreeFrame b a (frameEdges b
      ⟨.value a.speed, .value a.shape, .value a.phase, .value a.red, .value a.green, .value a.blue, .ok⟩)

/-- A configuration is built if it is legal, unchanged, and refused if it is not (70_reset_and_hazards.md R136 item 1,
00_scope.md R9, R13). -/
def Obligations.IllegalBuildsAreRefused : Prop :=
  (∀ p : Params, p.Legal → ∃ b, p.elaborate = .ok b ∧ b.toParams = p) ∧
  (∀ p : Params, ¬ p.Legal → ∃ e, p.elaborate = .error e)

/-! ## Frames -/

/-- The frame function (44_frame_scheduler.md R114): from SAMPLE_SPEED at `time`, over the edges of a fault-free frame with
any number of hold edges, the block is back at SAMPLE_SPEED with the state R114 lists. -/
def Obligations.FaultFreeFrameFunction : Prop :=
  ∀ (s : State) (a : FrameAnswers) (l rest : List PortInputs), Inv s → s.op = 0x1#4 → FaultFreeFrame s.cfg a l →
    s.stim = l ++ rest →
    Host.Core.run Sys2Proof.core l.length s = .next
      { op := 0x1#4
        time := BitVec.ofNat 32 (s.time.toNat + specDelay s.cfg.toParams a.speed)
        speedS := a.speed, shapeS := a.shape, phaseS := a.phase, redS := a.red, greenS := a.green, blueS := a.blue
        rV := BitVec.ofNat 8 (specChannel s.cfg.toParams s.time.toNat 0 a.red a.phase a.shape)
        gV := BitVec.ofNat 8 (specChannel s.cfg.toParams s.time.toNat 1 a.green a.phase a.shape)
        bV := BitVec.ofNat 8 (specChannel s.cfg.toParams s.time.toNat 2 a.blue a.phase a.shape)
        hist := specColor s.cfg.toParams s.time.toNat a :: s.hist.dropLast
        delayMs := BitVec.ofNat 32 (specDelay s.cfg.toParams a.speed)
        remaining := 0#32
        faultCode := 0#2, faultOp := 0x0#4
        cfg := s.cfg, resetSeen := true, stim := rest, edge := s.edge + l.length }

/-- Frames in a row (44_frame_scheduler.md R115, 42_history_buffer.md R98): `time` is the sum of the delays, and `hist` holds
the colors of the frames, the latest first, each synthesised at the time its frame began. -/
def Obligations.FramesAccumulateTimeAndTrail : Prop :=
  ∀ (fs : List (FrameAnswers × List PortInputs)) (s : State) (rest : List PortInputs), Inv s → s.op = 0x1#4 →
    FaultFreeFrames s.cfg fs → s.stim = (fs.map Prod.snd).flatten ++ rest →
    ∃ t, Host.Core.run Sys2Proof.core (fs.map Prod.snd).flatten.length s = .next t ∧
      t.op = 0x1#4 ∧ t.stim = rest ∧
      t.time = BitVec.ofNat 32 (s.time.toNat + specTotalDelay s.cfg.toParams (fs.map Prod.fst)) ∧
      t.hist = ((specColors s.cfg.toParams s.time.toNat (fs.map Prod.fst)).reverse ++ s.hist).take s.cfg.numLeds

/-- From reset: after INIT's edge and k frames, the next frame starts at the sum of the k delays, and slots that no frame has
filled yet are 0x000000 (44_frame_scheduler.md R115, 42_history_buffer.md R98). -/
def Obligations.FramesFromReset : Prop :=
  ∀ (b : Build) (e : PortInputs) (fs : List (FrameAnswers × List PortInputs)) (rest : List PortInputs) (n : Nat),
    e.rst = false → FaultFreeFrames b fs →
    ∃ t, Host.Core.run Sys2Proof.core (1 + (fs.map Prod.snd).flatten.length)
        (State.afterReset b (e :: ((fs.map Prod.snd).flatten ++ rest)) n) = .next t ∧
      t.op = 0x1#4 ∧ t.stim = rest ∧
      t.time = BitVec.ofNat 32 (specTotalDelay b.toParams (fs.map Prod.fst)) ∧
      (∀ i, i < b.numLeds → histEntry t i =
        some ((specColors b.toParams 0 (fs.map Prod.fst)).reverse.getD i 0x000000#24))

/-- The status line of a frame: on the first edge of WAIT_TICK the status outputs are the frame's time, color, delay, phase and
shape (60_exceptions.md R129, 10_state.md R43). -/
def Obligations.StatusLineOfTheFrame : Prop :=
  ∀ (s : State) (a : FrameAnswers) (l rest : List PortInputs), Inv s → s.op = 0x1#4 → FrameHead s.cfg a l →
    s.stim = l ++ rest →
    ∃ t, Host.Core.run Sys2Proof.core l.length s = .next t ∧ t.op = 0xD#4 ∧ t.stim = rest ∧
      statusOutputs t =
        { halted := false, faultCode := 0#2, faultOp := 0x0#4, dbgOp := 0xD#4, dbgTime := s.time,
          dbgColor := some (specColor s.cfg.toParams s.time.toNat a),
          dbgDelay := BitVec.ofNat 32 (specDelay s.cfg.toParams a.speed), dbgPhase := a.phase, dbgShape := a.shape }

/-- The trace of a fault-free frame is FRAME: its encoding is 123456789ABC followed by delay_ms + 1 digits D, for any number
of hold edges (30_encoding.md R71). -/
def Obligations.FrameTraceEncoding : Prop :=
  ∀ (s : State) (a : FrameAnswers) (l rest : List PortInputs), Inv s → s.op = 0x1#4 → FaultFreeFrame s.cfg a l →
    s.stim = l ++ rest →
    traceEncoding (traceRun l.length s) =
      [0x1#4, 0x2#4, 0x3#4, 0x4#4, 0x5#4, 0x6#4, 0x7#4, 0x8#4, 0x9#4, 0xA#4, 0xB#4, 0xC#4] ++
      List.replicate (specDelay s.cfg.toParams a.speed + 1) 0xD#4 ∧
    encodeAll (frameSteps (specDelay s.cfg.toParams a.speed)) = traceEncoding (traceRun l.length s)

/-- A fault-free frame takes at least 12 + delay_ms + 1 edges (70_reset_and_hazards.md R145): within fewer edges without
reset, the block has not been back at SAMPLE_SPEED. -/
def Obligations.FrameTakesItsEdges : Prop :=
  ∀ (k : Nat) (s t : State), Inv s → s.op = 0x2#4 → (∀ j, j < k → (s.inputAt j).rst = false) →
    Host.Core.run Sys2Proof.core k s = .next t → t.op = 0x1#4 →
    11 + specDelay s.cfg.toParams s.speedS + 1 ≤ k
end

