-- ==== Sys2Proof/Laws/Decode.lean ====
section
/-! SUPPORT. What the decoder and the encoder do, once and for all codes. -/

namespace Sys2Proof

@[simp] theorem decodeOp_encode (i : Instr) : decodeOp (encode i) = .ok i := by cases i <;> rfl

/-- The decoder answers a step for its code and no other. -/
theorem decodeOp_ok_iff (c : OpCode) (i : Instr) : decodeOp c = .ok i ↔ c = encode i := by
  constructor
  · intro h
    obtain ⟨n, hn⟩ := c
    interval_cases n <;> simp [decodeOp] at h <;> subst h <;> rfl
  · rintro rfl
    exact decodeOp_encode i

theorem encode_injective {i j : Instr} (h : encode i = encode j) : i = j := by
  have hi := decodeOp_encode i
  rw [h, decodeOp_encode] at hi
  injection hi with hij
  exact hij.symm

/-- No step has the reserved code. -/
theorem encode_ne_reserved (i : Instr) : encode i ≠ 0xE#4 := by cases i <;> decide

/-- Every code but the reserved one is a step's. -/
theorem exists_encode {c : OpCode} (h : c ≠ 0xE#4) : ∃ i, c = encode i := by
  obtain ⟨n, hn⟩ := c
  interval_cases n
  all_goals first
    | exact absurd rfl h
    | exact ⟨.init, rfl⟩ | exact ⟨.sampleSpeed, rfl⟩ | exact ⟨.deriveDelay, rfl⟩ | exact ⟨.sampleShape, rfl⟩
    | exact ⟨.samplePhase, rfl⟩ | exact ⟨.sampleRed, rfl⟩ | exact ⟨.sampleGreen, rfl⟩ | exact ⟨.sampleBlue, rfl⟩
    | exact ⟨.synthRed, rfl⟩ | exact ⟨.synthGreen, rfl⟩ | exact ⟨.synthBlue, rfl⟩ | exact ⟨.pushFront, rfl⟩
    | exact ⟨.writeStrip, rfl⟩ | exact ⟨.waitTick, rfl⟩ | exact ⟨.halted, rfl⟩

end Sys2Proof
end

