-- ==== Sys2Proof/Laws/State.lean ====
section
/-! SUPPORT. The fields of a state after each named update: one lemma per field per update, true by rfl, for simp. -/

namespace Sys2Proof.Machine

/-! Moving to the next step changes `op` alone. -/

@[simp] theorem State.goto_op (s : State) (i : Instr) : (s.goto i).op = encode i := rfl
@[simp] theorem State.goto_time (s : State) (i : Instr) : (s.goto i).time = s.time := rfl
@[simp] theorem State.goto_speedS (s : State) (i : Instr) : (s.goto i).speedS = s.speedS := rfl
@[simp] theorem State.goto_shapeS (s : State) (i : Instr) : (s.goto i).shapeS = s.shapeS := rfl
@[simp] theorem State.goto_phaseS (s : State) (i : Instr) : (s.goto i).phaseS = s.phaseS := rfl
@[simp] theorem State.goto_redS (s : State) (i : Instr) : (s.goto i).redS = s.redS := rfl
@[simp] theorem State.goto_greenS (s : State) (i : Instr) : (s.goto i).greenS = s.greenS := rfl
@[simp] theorem State.goto_blueS (s : State) (i : Instr) : (s.goto i).blueS = s.blueS := rfl
@[simp] theorem State.goto_rV (s : State) (i : Instr) : (s.goto i).rV = s.rV := rfl
@[simp] theorem State.goto_gV (s : State) (i : Instr) : (s.goto i).gV = s.gV := rfl
@[simp] theorem State.goto_bV (s : State) (i : Instr) : (s.goto i).bV = s.bV := rfl
@[simp] theorem State.goto_hist (s : State) (i : Instr) : (s.goto i).hist = s.hist := rfl
@[simp] theorem State.goto_delayMs (s : State) (i : Instr) : (s.goto i).delayMs = s.delayMs := rfl
@[simp] theorem State.goto_remaining (s : State) (i : Instr) : (s.goto i).remaining = s.remaining := rfl
@[simp] theorem State.goto_faultCode (s : State) (i : Instr) : (s.goto i).faultCode = s.faultCode := rfl
@[simp] theorem State.goto_faultOp (s : State) (i : Instr) : (s.goto i).faultOp = s.faultOp := rfl
@[simp] theorem State.goto_cfg (s : State) (i : Instr) : (s.goto i).cfg = s.cfg := rfl
@[simp] theorem State.goto_resetSeen (s : State) (i : Instr) : (s.goto i).resetSeen = s.resetSeen := rfl
@[simp] theorem State.goto_stim (s : State) (i : Instr) : (s.goto i).stim = s.stim := rfl
@[simp] theorem State.goto_edge (s : State) (i : Instr) : (s.goto i).edge = s.edge := rfl

/-! Fault entry changes `fault_code`, `fault_op` and `op` alone (60_exceptions.md R119). -/

@[simp] theorem State.enterFault_op (s : State) (c : FaultBits) (p : Instr) : (s.enterFault c p).op = encode .halted := rfl
@[simp] theorem State.enterFault_time (s : State) (c : FaultBits) (p : Instr) : (s.enterFault c p).time = s.time := rfl
@[simp] theorem State.enterFault_speedS (s : State) (c : FaultBits) (p : Instr) : (s.enterFault c p).speedS = s.speedS := rfl
@[simp] theorem State.enterFault_shapeS (s : State) (c : FaultBits) (p : Instr) : (s.enterFault c p).shapeS = s.shapeS := rfl
@[simp] theorem State.enterFault_phaseS (s : State) (c : FaultBits) (p : Instr) : (s.enterFault c p).phaseS = s.phaseS := rfl
@[simp] theorem State.enterFault_redS (s : State) (c : FaultBits) (p : Instr) : (s.enterFault c p).redS = s.redS := rfl
@[simp] theorem State.enterFault_greenS (s : State) (c : FaultBits) (p : Instr) : (s.enterFault c p).greenS = s.greenS := rfl
@[simp] theorem State.enterFault_blueS (s : State) (c : FaultBits) (p : Instr) : (s.enterFault c p).blueS = s.blueS := rfl
@[simp] theorem State.enterFault_rV (s : State) (c : FaultBits) (p : Instr) : (s.enterFault c p).rV = s.rV := rfl
@[simp] theorem State.enterFault_gV (s : State) (c : FaultBits) (p : Instr) : (s.enterFault c p).gV = s.gV := rfl
@[simp] theorem State.enterFault_bV (s : State) (c : FaultBits) (p : Instr) : (s.enterFault c p).bV = s.bV := rfl
@[simp] theorem State.enterFault_hist (s : State) (c : FaultBits) (p : Instr) : (s.enterFault c p).hist = s.hist := rfl
@[simp] theorem State.enterFault_delayMs (s : State) (c : FaultBits) (p : Instr) : (s.enterFault c p).delayMs = s.delayMs := rfl
@[simp] theorem State.enterFault_remaining (s : State) (c : FaultBits) (p : Instr) : (s.enterFault c p).remaining = s.remaining := rfl
@[simp] theorem State.enterFault_faultCode (s : State) (c : FaultBits) (p : Instr) : (s.enterFault c p).faultCode = c := rfl
@[simp] theorem State.enterFault_faultOp (s : State) (c : FaultBits) (p : Instr) : (s.enterFault c p).faultOp = encode p := rfl
@[simp] theorem State.enterFault_cfg (s : State) (c : FaultBits) (p : Instr) : (s.enterFault c p).cfg = s.cfg := rfl
@[simp] theorem State.enterFault_resetSeen (s : State) (c : FaultBits) (p : Instr) : (s.enterFault c p).resetSeen = s.resetSeen := rfl
@[simp] theorem State.enterFault_stim (s : State) (c : FaultBits) (p : Instr) : (s.enterFault c p).stim = s.stim := rfl
@[simp] theorem State.enterFault_edge (s : State) (c : FaultBits) (p : Instr) : (s.enterFault c p).edge = s.edge := rfl

/-! A counted tick changes `time` and `remaining` alone (44_frame_scheduler.md R111). -/

@[simp] theorem State.countTick_op (s : State) : (s.countTick).op = s.op := rfl
@[simp] theorem State.countTick_time (s : State) : (s.countTick).time = s.time + 1 := rfl
@[simp] theorem State.countTick_speedS (s : State) : (s.countTick).speedS = s.speedS := rfl
@[simp] theorem State.countTick_shapeS (s : State) : (s.countTick).shapeS = s.shapeS := rfl
@[simp] theorem State.countTick_phaseS (s : State) : (s.countTick).phaseS = s.phaseS := rfl
@[simp] theorem State.countTick_redS (s : State) : (s.countTick).redS = s.redS := rfl
@[simp] theorem State.countTick_greenS (s : State) : (s.countTick).greenS = s.greenS := rfl
@[simp] theorem State.countTick_blueS (s : State) : (s.countTick).blueS = s.blueS := rfl
@[simp] theorem State.countTick_rV (s : State) : (s.countTick).rV = s.rV := rfl
@[simp] theorem State.countTick_gV (s : State) : (s.countTick).gV = s.gV := rfl
@[simp] theorem State.countTick_bV (s : State) : (s.countTick).bV = s.bV := rfl
@[simp] theorem State.countTick_hist (s : State) : (s.countTick).hist = s.hist := rfl
@[simp] theorem State.countTick_delayMs (s : State) : (s.countTick).delayMs = s.delayMs := rfl
@[simp] theorem State.countTick_remaining (s : State) : (s.countTick).remaining = s.remaining - 1 := rfl
@[simp] theorem State.countTick_faultCode (s : State) : (s.countTick).faultCode = s.faultCode := rfl
@[simp] theorem State.countTick_faultOp (s : State) : (s.countTick).faultOp = s.faultOp := rfl
@[simp] theorem State.countTick_cfg (s : State) : (s.countTick).cfg = s.cfg := rfl
@[simp] theorem State.countTick_resetSeen (s : State) : (s.countTick).resetSeen = s.resetSeen := rfl
@[simp] theorem State.countTick_stim (s : State) : (s.countTick).stim = s.stim := rfl
@[simp] theorem State.countTick_edge (s : State) : (s.countTick).edge = s.edge := rfl

/-! The end of an edge changes the environment's fields alone. -/

@[simp] theorem State.advance_op (s : State) : (s.advance).op = s.op := rfl
@[simp] theorem State.advance_time (s : State) : (s.advance).time = s.time := rfl
@[simp] theorem State.advance_speedS (s : State) : (s.advance).speedS = s.speedS := rfl
@[simp] theorem State.advance_shapeS (s : State) : (s.advance).shapeS = s.shapeS := rfl
@[simp] theorem State.advance_phaseS (s : State) : (s.advance).phaseS = s.phaseS := rfl
@[simp] theorem State.advance_redS (s : State) : (s.advance).redS = s.redS := rfl
@[simp] theorem State.advance_greenS (s : State) : (s.advance).greenS = s.greenS := rfl
@[simp] theorem State.advance_blueS (s : State) : (s.advance).blueS = s.blueS := rfl
@[simp] theorem State.advance_rV (s : State) : (s.advance).rV = s.rV := rfl
@[simp] theorem State.advance_gV (s : State) : (s.advance).gV = s.gV := rfl
@[simp] theorem State.advance_bV (s : State) : (s.advance).bV = s.bV := rfl
@[simp] theorem State.advance_hist (s : State) : (s.advance).hist = s.hist := rfl
@[simp] theorem State.advance_delayMs (s : State) : (s.advance).delayMs = s.delayMs := rfl
@[simp] theorem State.advance_remaining (s : State) : (s.advance).remaining = s.remaining := rfl
@[simp] theorem State.advance_faultCode (s : State) : (s.advance).faultCode = s.faultCode := rfl
@[simp] theorem State.advance_faultOp (s : State) : (s.advance).faultOp = s.faultOp := rfl
@[simp] theorem State.advance_cfg (s : State) : (s.advance).cfg = s.cfg := rfl
@[simp] theorem State.advance_resetSeen (s : State) : (s.advance).resetSeen = s.resetSeen := rfl
@[simp] theorem State.advance_stim (s : State) : (s.advance).stim = s.stim.tail := rfl
@[simp] theorem State.advance_edge (s : State) : (s.advance).edge = s.edge + 1 := rfl

/-! A reset edge gives every field of S its reset value (70_reset_and_hazards.md R133). -/

@[simp] theorem State.resetRegisters_op (s : State) : (s.resetRegisters).op = encode .init := rfl
@[simp] theorem State.resetRegisters_time (s : State) : (s.resetRegisters).time = 0 := rfl
@[simp] theorem State.resetRegisters_speedS (s : State) : (s.resetRegisters).speedS = 0 := rfl
@[simp] theorem State.resetRegisters_shapeS (s : State) : (s.resetRegisters).shapeS = 0 := rfl
@[simp] theorem State.resetRegisters_phaseS (s : State) : (s.resetRegisters).phaseS = 0 := rfl
@[simp] theorem State.resetRegisters_redS (s : State) : (s.resetRegisters).redS = 0 := rfl
@[simp] theorem State.resetRegisters_greenS (s : State) : (s.resetRegisters).greenS = 0 := rfl
@[simp] theorem State.resetRegisters_blueS (s : State) : (s.resetRegisters).blueS = 0 := rfl
@[simp] theorem State.resetRegisters_rV (s : State) : (s.resetRegisters).rV = 0 := rfl
@[simp] theorem State.resetRegisters_gV (s : State) : (s.resetRegisters).gV = 0 := rfl
@[simp] theorem State.resetRegisters_bV (s : State) : (s.resetRegisters).bV = 0 := rfl
@[simp] theorem State.resetRegisters_hist (s : State) : (s.resetRegisters).hist = List.replicate s.cfg.numLeds 0 := rfl
@[simp] theorem State.resetRegisters_delayMs (s : State) : (s.resetRegisters).delayMs = 0 := rfl
@[simp] theorem State.resetRegisters_remaining (s : State) : (s.resetRegisters).remaining = 0 := rfl
@[simp] theorem State.resetRegisters_faultCode (s : State) : (s.resetRegisters).faultCode = 0 := rfl
@[simp] theorem State.resetRegisters_faultOp (s : State) : (s.resetRegisters).faultOp = 0 := rfl
@[simp] theorem State.resetRegisters_cfg (s : State) : (s.resetRegisters).cfg = s.cfg := rfl
@[simp] theorem State.resetRegisters_resetSeen (s : State) : (s.resetRegisters).resetSeen = true := rfl
@[simp] theorem State.resetRegisters_stim (s : State) : (s.resetRegisters).stim = s.stim := rfl
@[simp] theorem State.resetRegisters_edge (s : State) : (s.resetRegisters).edge = s.edge := rfl

/-! The state after reset, field by field (70_reset_and_hazards.md R133). -/

@[simp] theorem State.afterReset_op (b : Build) (l : List PortInputs) (n : Nat) : (State.afterReset b l n).op = encode .init := rfl
@[simp] theorem State.afterReset_time (b : Build) (l : List PortInputs) (n : Nat) : (State.afterReset b l n).time = 0 := rfl
@[simp] theorem State.afterReset_speedS (b : Build) (l : List PortInputs) (n : Nat) : (State.afterReset b l n).speedS = 0 := rfl
@[simp] theorem State.afterReset_shapeS (b : Build) (l : List PortInputs) (n : Nat) : (State.afterReset b l n).shapeS = 0 := rfl
@[simp] theorem State.afterReset_phaseS (b : Build) (l : List PortInputs) (n : Nat) : (State.afterReset b l n).phaseS = 0 := rfl
@[simp] theorem State.afterReset_redS (b : Build) (l : List PortInputs) (n : Nat) : (State.afterReset b l n).redS = 0 := rfl
@[simp] theorem State.afterReset_greenS (b : Build) (l : List PortInputs) (n : Nat) : (State.afterReset b l n).greenS = 0 := rfl
@[simp] theorem State.afterReset_blueS (b : Build) (l : List PortInputs) (n : Nat) : (State.afterReset b l n).blueS = 0 := rfl
@[simp] theorem State.afterReset_rV (b : Build) (l : List PortInputs) (n : Nat) : (State.afterReset b l n).rV = 0 := rfl
@[simp] theorem State.afterReset_gV (b : Build) (l : List PortInputs) (n : Nat) : (State.afterReset b l n).gV = 0 := rfl
@[simp] theorem State.afterReset_bV (b : Build) (l : List PortInputs) (n : Nat) : (State.afterReset b l n).bV = 0 := rfl
@[simp] theorem State.afterReset_hist (b : Build) (l : List PortInputs) (n : Nat) : (State.afterReset b l n).hist = List.replicate b.numLeds 0 := rfl
@[simp] theorem State.afterReset_delayMs (b : Build) (l : List PortInputs) (n : Nat) : (State.afterReset b l n).delayMs = 0 := rfl
@[simp] theorem State.afterReset_remaining (b : Build) (l : List PortInputs) (n : Nat) : (State.afterReset b l n).remaining = 0 := rfl
@[simp] theorem State.afterReset_faultCode (b : Build) (l : List PortInputs) (n : Nat) : (State.afterReset b l n).faultCode = 0 := rfl
@[simp] theorem State.afterReset_faultOp (b : Build) (l : List PortInputs) (n : Nat) : (State.afterReset b l n).faultOp = 0 := rfl
@[simp] theorem State.afterReset_cfg (b : Build) (l : List PortInputs) (n : Nat) : (State.afterReset b l n).cfg = b := rfl
@[simp] theorem State.afterReset_resetSeen (b : Build) (l : List PortInputs) (n : Nat) : (State.afterReset b l n).resetSeen = true := rfl
@[simp] theorem State.afterReset_stim (b : Build) (l : List PortInputs) (n : Nat) : (State.afterReset b l n).stim = l := rfl
@[simp] theorem State.afterReset_edge (b : Build) (l : List PortInputs) (n : Nat) : (State.afterReset b l n).edge = n := rfl

/-! The state k edges later, if the block's own state stays (log 2). -/

@[simp] theorem State.after_op (s : State) (k : Nat) : (s.after k).op = s.op := rfl
@[simp] theorem State.after_time (s : State) (k : Nat) : (s.after k).time = s.time := rfl
@[simp] theorem State.after_speedS (s : State) (k : Nat) : (s.after k).speedS = s.speedS := rfl
@[simp] theorem State.after_shapeS (s : State) (k : Nat) : (s.after k).shapeS = s.shapeS := rfl
@[simp] theorem State.after_phaseS (s : State) (k : Nat) : (s.after k).phaseS = s.phaseS := rfl
@[simp] theorem State.after_redS (s : State) (k : Nat) : (s.after k).redS = s.redS := rfl
@[simp] theorem State.after_greenS (s : State) (k : Nat) : (s.after k).greenS = s.greenS := rfl
@[simp] theorem State.after_blueS (s : State) (k : Nat) : (s.after k).blueS = s.blueS := rfl
@[simp] theorem State.after_rV (s : State) (k : Nat) : (s.after k).rV = s.rV := rfl
@[simp] theorem State.after_gV (s : State) (k : Nat) : (s.after k).gV = s.gV := rfl
@[simp] theorem State.after_bV (s : State) (k : Nat) : (s.after k).bV = s.bV := rfl
@[simp] theorem State.after_hist (s : State) (k : Nat) : (s.after k).hist = s.hist := rfl
@[simp] theorem State.after_delayMs (s : State) (k : Nat) : (s.after k).delayMs = s.delayMs := rfl
@[simp] theorem State.after_remaining (s : State) (k : Nat) : (s.after k).remaining = s.remaining := rfl
@[simp] theorem State.after_faultCode (s : State) (k : Nat) : (s.after k).faultCode = s.faultCode := rfl
@[simp] theorem State.after_faultOp (s : State) (k : Nat) : (s.after k).faultOp = s.faultOp := rfl
@[simp] theorem State.after_cfg (s : State) (k : Nat) : (s.after k).cfg = s.cfg := rfl
@[simp] theorem State.after_resetSeen (s : State) (k : Nat) : (s.after k).resetSeen = s.resetSeen := rfl
@[simp] theorem State.after_stim (s : State) (k : Nat) : (s.after k).stim = s.stim.drop k := rfl
@[simp] theorem State.after_edge (s : State) (k : Nat) : (s.after k).edge = s.edge + k := rfl

end Sys2Proof.Machine
end

