-- ==== Sys2Proof/Laws/Ops.lean ====
section
/-! SUPPORT. For each shared operation, once, everything it can do. -/

namespace Sys2Proof.Machine

/-- A listed edge is the one the step sees. -/
@[simp] theorem now_cons {s : State} {e : PortInputs} {rest : List PortInputs} (h : s.stim = e :: rest) : s.now = e := by
  simp [State.now, h]

/-- The inputs of this edge are those 0 edges from now. -/
theorem now_eq_inputAt (s : State) : s.now = s.inputAt 0 := by
  cases h : s.stim <;> simp [State.now, State.inputAt, h]

/-- The inputs after k edges are those k further on. -/
theorem inputAt_after (s : State) (k j : Nat) : (s.after k).inputAt j = s.inputAt (k + j) := by
  simp [State.inputAt, State.after, List.getElem?_drop, Nat.add_assoc]

/-- A SAMPLE step faults, stores and goes on, or holds (40_sample_source.md R73, R74). -/
theorem sampleHandshake_cases {p next : Instr} {stored s t : State} (h : sampleHandshake p next stored s = .next t) :
    (s.now.smpFault = true ∧ t = s.enterFault FaultCode.sample p) ∨
    (s.now.smpFault = false ∧ s.now.smpAck = true ∧ t = stored.goto next) ∨
    (s.now.smpFault = false ∧ s.now.smpAck = false ∧ t = s) := by
  unfold sampleHandshake raiseFault at h
  cases hf : s.now.smpFault <;> cases ha : s.now.smpAck <;> simp [hf, ha] at h ⊢ <;> exact h.symm

/-- WRITE_STRIP faults, goes on, or holds (43_strip_writer.md R101 to R103). -/
theorem stripHandshake_cases {p next : Instr} {s t : State} (h : stripHandshake p next s = .next t) :
    (s.now.wrErr = true ∧ s.cfg.txFaultPolicy = .halt ∧ t = s.enterFault FaultCode.transmit p) ∨
    ((s.now.wrErr = true ∧ s.cfg.txFaultPolicy = .skip ∨ s.now.wrErr = false ∧ s.now.wrDone = true) ∧ t = s.goto next) ∨
    (s.now.wrErr = false ∧ s.now.wrDone = false ∧ t = s) := by
  unfold stripHandshake raiseFault at h
  cases he : s.now.wrErr <;> cases hd : s.now.wrDone <;> cases hp : s.cfg.txFaultPolicy <;>
    simp [he, hd, hp] at h ⊢ <;> exact h.symm

/-- WAIT_TICK exits, counts a tick, or holds (44_frame_scheduler.md R111). -/
theorem execWaitTick_cases {s t : State} (h : execWaitTick s = .next t) :
    (s.remaining = 0#32 ∧ t = s.goto .sampleSpeed) ∨
    (s.remaining ≠ 0#32 ∧ s.now.msTick = true ∧ t = s.countTick) ∨
    (s.remaining ≠ 0#32 ∧ s.now.msTick = false ∧ t = s) := by
  unfold execWaitTick at h
  by_cases hr : s.remaining = 0#32 <;> cases ht : s.now.msTick <;> simp [hr, ht] at h ⊢ <;> exact h.symm

/-- A SAMPLE step always answers a next state. -/
theorem sampleHandshake_answers_next (p next : Instr) (stored s : State) :
    ∃ t, sampleHandshake p next stored s = .next t := by
  unfold sampleHandshake raiseFault
  cases s.now.smpFault <;> cases s.now.smpAck <;> exact ⟨_, rfl⟩

/-- WRITE_STRIP always answers a next state. -/
theorem stripHandshake_answers_next (p next : Instr) (s : State) : ∃ t, stripHandshake p next s = .next t := by
  unfold stripHandshake raiseFault
  cases s.now.wrErr <;> cases s.now.wrDone <;> cases s.cfg.txFaultPolicy <;> exact ⟨_, rfl⟩

/-- WAIT_TICK always answers a next state. -/
theorem execWaitTick_answers_next (s : State) : ∃ t, execWaitTick s = .next t := by
  unfold execWaitTick
  by_cases hr : s.remaining = 0#32 <;> cases s.now.msTick <;> simp [hr]

/-- Every meaning answers a next state: the block's own faults are next states, and no step ends in a stop. -/
theorem exec_answers_next (i : Instr) (s : State) : ∃ t, exec i s = .next t := by
  cases i
  case init => exact ⟨_, rfl⟩
  case deriveDelay => exact ⟨_, rfl⟩
  case synthRed => exact ⟨_, rfl⟩
  case synthGreen => exact ⟨_, rfl⟩
  case synthBlue => exact ⟨_, rfl⟩
  case pushFront => exact ⟨_, rfl⟩
  case halted => exact ⟨_, rfl⟩
  case writeStrip => exact stripHandshake_answers_next _ _ _
  case waitTick => exact execWaitTick_answers_next _
  all_goals exact sampleHandshake_answers_next _ _ _ _

/-- The History Buffer keeps its length over a push (42_history_buffer.md R98). -/
theorem pushColor_wf (b : Build) (c : Color) (hist : List Color) (h : Memory.wf b hist = true) :
    Memory.wf b (pushColor b c hist) = true := by
  have hn := b.legal.2.2.2.2.2.2
  simp only [Memory.wf, beq_iff_eq, pushColor, List.length_take, List.length_cons] at h ⊢
  omega

/-- The zeroed buffer has the canonical form (70_reset_and_hazards.md R133). -/
theorem zeroed_wf (b : Build) : Memory.wf b (List.replicate b.numLeds 0) = true := by simp [Memory.wf]

theorem resetRegisters_wf (s : State) : Memory.wf s.resetRegisters.cfg s.resetRegisters.hist = true := zeroed_wf s.cfg

/-- The memory of `State.reset` has the canonical form. -/
theorem reset_wf : Memory.wf State.reset.cfg State.reset.hist = true := zeroed_wf _

/-- A push of a buffer in canonical form drops the oldest entry and no other (42_history_buffer.md R97). -/
theorem pushColor_eq (b : Build) (c : Color) (hist : List Color) (h : Memory.wf b hist = true) :
    pushColor b c hist = c :: hist.dropLast := by
  have hn := b.legal.2.2.2.2.2.2
  simp only [Memory.wf, beq_iff_eq] at h
  obtain ⟨m, hm⟩ : ∃ m, b.numLeds = m + 1 := ⟨b.numLeds - 1, by omega⟩
  simp only [pushColor, hm, List.take_succ_cons, List.dropLast_eq_take]
  congr 1
  congr 1
  omega

/-- The table index (41_waveform_synthesis.md R83). -/
@[simp] theorem waveIndex_val (b : Build) (time : Word32) (k : Nat) (phase : Sample) :
    (waveIndex b time k phase).val = (time.toNat + k * (phase / 8)) % b.tableLen := by
  simp [waveIndex, phaseDelay, Nat.shiftRight_eq_div_pow]

/-- A looked-up wave value, in the spec's words. -/
theorem lut_waveIndex (b : Build) (time : Word32) (k : Nat) (phase : Sample) :
    (lut b (waveIndex b time k phase)).toNat = specWave b.toParams time.toNat k phase := by
  have hlt : (time.toNat + k * (phase / 8)) % b.tableLen < b.wave.length := by
    rw [b.legal.2.2.1]
    exact Nat.mod_lt _ (tableLen_pos b)
  unfold lut specWave
  rw [List.getD_eq_getElem _ _ hlt]
  simp

/-- The multiply-accumulate, in the spec's words (41_waveform_synthesis.md R87). -/
theorem mac_toNat (b : Build) (ch : Sample) (w : Level) (s : Sample) :
    (mac b ch w s).toNat = specSum b.toParams ch w.toNat s % 256 := by
  simp [mac, specSum, sineComponent, dcComponent, dcOffset, Params.fullScale, Nat.shiftRight_eq_div_pow]

/-- A SYNTH step's result, in the spec's words (41_waveform_synthesis.md R90 to R92). -/
theorem synthesize_toNat (s : State) (k : Nat) (ch : Sample) :
    (synthesize s k ch).toNat = specChannel s.cfg.toParams s.time.toNat k ch s.phaseS s.shapeS := by
  rw [synthesize, mac_toNat, lut_waveIndex, specChannel]

/-- The delay law, in the spec's words (44_frame_scheduler.md R108). -/
theorem delayOf_eq (b : Build) (x : Sample) : delayOf b x = specDelay b.toParams x := by
  unfold delayOf specDelay clamp satSub
  split
  · rfl
  · rw [Nat.sub_eq_zero_of_le (by omega)]

/-- The delay is in [MIN_DELAY, MAX_DELAY] (44_frame_scheduler.md R108). -/
theorem delayOf_range (b : Build) (x : Sample) : b.minDelay ≤ delayOf b x ∧ delayOf b x ≤ b.maxDelay := by
  have h := b.legal.2.2.2.2.1
  unfold delayOf clamp
  omega

/-- The delay fits the register (44_frame_scheduler.md R108). -/
theorem delayWord_toNat (b : Build) (x : Sample) : (BitVec.ofNat 32 (delayOf b x)).toNat = delayOf b x := by
  have h := (delayOf_range b x).2
  have h2 := b.legal.2.2.2.2.2.1
  rw [BitVec.toNat_ofNat, Nat.mod_eq_of_lt]
  omega

/-- A packed color as a number (20_memory.md R47). -/
theorem packColor_toNat (r g b : Level) : (packColor r g b).toNat = r.toNat * 65536 + g.toNat * 256 + b.toNat := by
  have hb := b.isLt
  have hg := g.isLt
  unfold packColor
  rw [BitVec.toNat_append, BitVec.toNat_append, ← Nat.shiftLeft_add_eq_or_of_lt hb, ← Nat.shiftLeft_add_eq_or_of_lt hg]
  simp only [Nat.shiftLeft_eq]
  omega

end Sys2Proof.Machine
end

