-- ==== Sys2Proof/Laws/PerInstr.lean ====
section
/-! SUPPORT. A statement about every instruction as syntax, one lemma per constructor: its code of 30_encoding.md R61 is
read back as the instruction, as a word of `op` and as a word of the opcode table, and it has no ill-formed operand. -/

namespace Sys2Proof.Laws.DecodeEncode

/-- The code of an instruction stands for it and for no other. -/
def Statement (i : Instr) : Prop :=
  decodeOp (encode i) = .ok i ∧ decodeTableWord 8 (encode i).toNat = some i ∧ i.wellFormed = true

theorem init : Statement .init := ⟨rfl, rfl, rfl⟩
theorem sampleSpeed : Statement .sampleSpeed := ⟨rfl, rfl, rfl⟩
theorem deriveDelay : Statement .deriveDelay := ⟨rfl, rfl, rfl⟩
theorem sampleShape : Statement .sampleShape := ⟨rfl, rfl, rfl⟩
theorem samplePhase : Statement .samplePhase := ⟨rfl, rfl, rfl⟩
theorem sampleRed : Statement .sampleRed := ⟨rfl, rfl, rfl⟩
theorem sampleGreen : Statement .sampleGreen := ⟨rfl, rfl, rfl⟩
theorem sampleBlue : Statement .sampleBlue := ⟨rfl, rfl, rfl⟩
theorem synthRed : Statement .synthRed := ⟨rfl, rfl, rfl⟩
theorem synthGreen : Statement .synthGreen := ⟨rfl, rfl, rfl⟩
theorem synthBlue : Statement .synthBlue := ⟨rfl, rfl, rfl⟩
theorem pushFront : Statement .pushFront := ⟨rfl, rfl, rfl⟩
theorem writeStrip : Statement .writeStrip := ⟨rfl, rfl, rfl⟩
theorem waitTick : Statement .waitTick := ⟨rfl, rfl, rfl⟩
theorem halted : Statement .halted := ⟨rfl, rfl, rfl⟩

end Sys2Proof.Laws.DecodeEncode
end

