-- ==== Sys2Proof/Laws/Step.lean ====
section
/-! SUPPORT. Everything one step can do, and runs of several steps. -/

namespace Sys2Proof.Machine

/-- A step that answers a next state applied reset or ran the decoded step. -/
theorem step_cases {s t : State} (h : step s = .next t) :
    (s.now.rst = true ∧ t = s.resetRegisters.advance) ∨
    (s.now.rst = false ∧ s.resetSeen = true ∧ s.faultCode ≠ FaultCode.unsupported ∧
      ∃ i u, s.op = encode i ∧ exec i s = .next u ∧ t = u.advance) := by
  unfold step clockEdge at h
  split at h
  · exact .inl ⟨‹_›, by simpa using h.symm⟩
  · unfold runStep at h
    split at h
    · cases h
    · split at h
      · cases h
      · split at h
        · cases h
        · rename_i hr hs hf _ i hi
          refine .inr ⟨by simpa using hr, by simpa using hs, hf, i, ?_⟩
          obtain ⟨u, hu⟩ := exec_answers_next i s
          rw [hu] at h
          exact ⟨u, (decodeOp_ok_iff _ _).1 hi, hu, by simpa [endEdge] using h.symm⟩

/-- A reset edge (70_reset_and_hazards.md R133). -/
theorem step_reset {s : State} (h : s.now.rst = true) : step s = .next s.resetRegisters.advance := by
  simp [step, clockEdge, h]

/-- An edge that runs the step of `op`. -/
theorem step_exec {s : State} {i : Instr} (hr : s.now.rst = false) (hs : s.resetSeen = true)
    (hf : s.faultCode ≠ FaultCode.unsupported) (hi : s.op = encode i) : step s = endEdge (exec i s) := by
  simp [step, clockEdge, runStep, hr, hs, hf, hi]

/-- An edge that runs a step to its next state. -/
theorem step_next {s t : State} {i : Instr} (hr : s.now.rst = false) (hs : s.resetSeen = true)
    (hf : s.faultCode ≠ FaultCode.unsupported) (hi : s.op = encode i) (he : exec i s = .next t) :
    step s = .next t.advance := by
  rw [step_exec hr hs hf hi, he]
  rfl

/-- One more edge of a run. -/
theorem run_succ {s t : State} (k : Nat) (h : step s = .next t) :
    Host.Core.run Sys2Proof.core (k + 1) s = Host.Core.run Sys2Proof.core k t := by
  have h' : Sys2Proof.core.step s = .next t := h
  simp [Host.Core.run, h']

/-- A run in two parts. -/
theorem run_add {s t : State} (j k : Nat) (h : Host.Core.run Sys2Proof.core j s = .next t) :
    Host.Core.run Sys2Proof.core (j + k) s = Host.Core.run Sys2Proof.core k t := by
  induction j generalizing s with
  | zero =>
    have h' : (Host.Outcome.next s : Result) = .next t := h
    cases h'
    simp
  | succ j ih =>
    rw [Nat.succ_add]
    cases hs : step s with
    | next u =>
      rw [run_succ j hs] at h
      rw [run_succ (j + k) hs]
      exact ih h
    | fault r => cases r
    | refused r =>
      have hs' : Sys2Proof.core.step s = .refused r := hs
      simp [Host.Core.run, hs'] at h

end Sys2Proof.Machine
end

