-- ==== Sys2Proof/Tests/Slice0.lean ====
section
/-! SUPPORT. Tests, by hand from the spec's tables: one step each, the expected values those of 95_test_vectors.md (the
vector is named in each docstring) or of 30_encoding.md R61; the smoke test of the checks of WellFormed; and for every
statement with hypotheses a witness, a concrete state and operands that meet them, clause by clause. -/

set_option maxRecDepth 8000

namespace Sys2Proof.Tests.Slice0
open Sys2Proof Sys2Proof.Machine

/-! ## Helpers -/

theorem sawtooth_length (n : Nat) : (TestConfig.sawtooth n).length = n := by simp [TestConfig.sawtooth]

/-- TC1 of 95_test_vectors.md Part 1. -/
def tc1 : Build :=
  ⟨TestConfig.params .tc1, by decide, .inl rfl, sawtooth_length _, fun _ => rfl, by decide, by decide, by decide⟩
/-- TC2. -/
def tc2 : Build :=
  ⟨TestConfig.params .tc2, by decide, .inl rfl, sawtooth_length _, fun _ => rfl, by decide, by decide, by decide⟩
/-- TC3. -/
def tc3 : Build :=
  ⟨TestConfig.params .tc3, by decide, .inr rfl, sawtooth_length _, by decide, by decide, by decide, by decide⟩
/-- TC4. -/
def tc4 : Build :=
  ⟨TestConfig.params .tc4, by decide, .inl rfl, sawtooth_length _, fun _ => rfl, by decide, by decide, by decide⟩

/-- The reset state of a build, with an op code and the inputs of the coming edges put in. -/
def atOp (b : Build) (c : OpCode) (l : List PortInputs) : State := { State.afterReset b l 0 with op := c }

/-- An edge with a reset. -/
def resetEdge : PortInputs := { PortInputs.idle with rst := true }
/-- An edge with a conversion's value. -/
def ackEdge (v : Nat) : PortInputs := { PortInputs.idle with smpAck := true, smpData := v }
/-- An edge with a conversion's failure, an acknowledge beside it. -/
def smpFaultEdge : PortInputs := { PortInputs.idle with smpAck := true, smpFault := true, smpData := 77 }
/-- An edge with the strip write done. -/
def doneEdge : PortInputs := { PortInputs.idle with wrDone := true }
/-- An edge with a strip write's failure, a completion beside it. -/
def wrErrEdge : PortInputs := { PortInputs.idle with wrDone := true, wrErr := true }
/-- An edge with a millisecond tick. -/
def tick : PortInputs := { PortInputs.idle with msTick := true }

/-- What f reads from a next state; none for another outcome. -/
def sees {α : Type} (f : State → α) : Result → Option α
  | .next t => some (f t)
  | .fault _ => none
  | .refused _ => none

/-- Whether an outcome is this refusal. -/
def refusedBy (r : Refusal) : Result → Bool
  | .refused q => decide (q = r)
  | .next _ => false
  | .fault _ => false

/-! ## Decoding: the codes of 30_encoding.md R61, written out bit by bit -/

theorem test_decode_init : decodeTableWord 8 0b0000 = some .init ∧ decodeBytes [0b00000000#8] = .ok .init := by decide
theorem test_decode_sampleSpeed : decodeTableWord 8 0b0001 = some .sampleSpeed ∧ decodeBytes [0b00000001#8] = .ok .sampleSpeed := by decide
theorem test_decode_deriveDelay : decodeTableWord 8 0b0010 = some .deriveDelay ∧ decodeBytes [0b00000010#8] = .ok .deriveDelay := by decide
theorem test_decode_sampleShape : decodeTableWord 8 0b0011 = some .sampleShape ∧ decodeBytes [0b00000011#8] = .ok .sampleShape := by decide
theorem test_decode_samplePhase : decodeTableWord 8 0b0100 = some .samplePhase ∧ decodeBytes [0b00000100#8] = .ok .samplePhase := by decide
theorem test_decode_sampleRed : decodeTableWord 8 0b0101 = some .sampleRed ∧ decodeBytes [0b00000101#8] = .ok .sampleRed := by decide
theorem test_decode_sampleGreen : decodeTableWord 8 0b0110 = some .sampleGreen ∧ decodeBytes [0b00000110#8] = .ok .sampleGreen := by decide
theorem test_decode_sampleBlue : decodeTableWord 8 0b0111 = some .sampleBlue ∧ decodeBytes [0b00000111#8] = .ok .sampleBlue := by decide
theorem test_decode_synthRed : decodeTableWord 8 0b1000 = some .synthRed ∧ decodeBytes [0b00001000#8] = .ok .synthRed := by decide
theorem test_decode_synthGreen : decodeTableWord 8 0b1001 = some .synthGreen ∧ decodeBytes [0b00001001#8] = .ok .synthGreen := by decide
theorem test_decode_synthBlue : decodeTableWord 8 0b1010 = some .synthBlue ∧ decodeBytes [0b00001010#8] = .ok .synthBlue := by decide
theorem test_decode_pushFront : decodeTableWord 8 0b1011 = some .pushFront ∧ decodeBytes [0b00001011#8] = .ok .pushFront := by decide
theorem test_decode_writeStrip : decodeTableWord 8 0b1100 = some .writeStrip ∧ decodeBytes [0b00001100#8] = .ok .writeStrip := by decide
theorem test_decode_waitTick : decodeTableWord 8 0b1101 = some .waitTick ∧ decodeBytes [0b00001101#8] = .ok .waitTick := by decide
theorem test_decode_halted : decodeTableWord 8 0b1111 = some .halted ∧ decodeBytes [0b00001111#8] = .ok .halted := by decide
theorem test_decode_reserved : decodeTableWord 8 0b1110 = none ∧ decodeOp 0b1110#4 = .error .reservedOp := by decide
theorem test_decode_five_bits : decodeTableWord 8 0b10001 = none ∧ decodeBytes [0b00010001#8] = .error .notFourBits := by
  decide
theorem test_decode_nothing : decodeBytes [] = .error .notFourBits := by decide
theorem test_place_every_code : ∀ i ∈ Instr.all, (State.reset.withFetchWord 8 (encode i).toNat).op = encode i := by decide

/-! ## Ill-formed terms (70_reset_and_hazards.md R136 item 1, 30_encoding.md R72) -/

theorem test_build_n0 : TestConfig.base.broken = none ∧ { TestConfig.base with sampleBits := 0 }.broken = some .sampleBits := by
  decide
theorem test_build_tableLen : { TestConfig.base with tableLen := 255 }.broken = some .tableLen := by decide
theorem test_build_waveLength : { TestConfig.base with tableLen := 360 }.broken = some .waveLength := by decide
theorem test_build_waveStart :
    { TestConfig.base with wave := List.replicate 256 127#8 }.broken = some .waveStart := by decide
theorem test_build_delayOrder : { TestConfig.base with minDelay := 1001 }.broken = some .delayOrder := by decide
theorem test_build_delayWidth : { TestConfig.base with maxDelay := 2 ^ 32 }.broken = some .delayWidth := by decide
theorem test_build_numLeds : { TestConfig.base with numLeds := 0 }.broken = some .numLeds := by decide
theorem test_frame_line_full_scale :
    FrameLine.wellFormed TestConfig.base ⟨.value 1023, .value 0, .fault, .value 0, .value 0, .value 0, .ok⟩ = true := by decide
theorem test_frame_line_over :
    FrameLine.wellFormed TestConfig.base ⟨.value 0, .value 0, .value 0, .value 0, .value 0, .value 1024, .ok⟩ = false := by
  decide
theorem test_script_over :
    Script.wellFormed ⟨.tc1, [⟨.value 0, .value 0, .value 1024, .value 0, .value 0, .value 0, .ok⟩]⟩ = false := by decide

/-! ## Texts (30_encoding.md R69 to R72) -/

theorem test_trace_ack :
    parseTraceLine TestConfig.base "0x1 SAMPLE_SPEED <- 150".toList = .ok (.line ⟨.sampleSpeed, .ack 150⟩) := by decide
theorem test_trace_comment :
    parseTraceLine TestConfig.base "0x2 DERIVE_DELAY            ; d = 100".toList = .ok (.line ⟨.deriveDelay, .plain⟩) := by
  decide
theorem test_trace_reserved : parseTraceLine TestConfig.base "0xE X".toList = .error .reservedCode := by decide
theorem test_trace_unknown : parseTraceLine TestConfig.base "0x1 SAMPLE_SPED <- 1".toList = .error .unknownName := by decide
theorem test_trace_range :
    parseTraceLine TestConfig.base "0x1 SAMPLE_SPEED <- 1024".toList = .error .sampleOutOfRange := by decide
theorem test_trace_line_number :
    parseTrace TestConfig.base ["0x0 INIT".toList, "FRAME".toList, "0x2 INIT".toList] = .error (3, .wrongCode) := by decide
theorem test_script_text :
    parseScript ["config TC4".toList, "frame speed=101 shape=1023 phase=!fault red=800 green=600 blue=400 write=!err".toList] =
      .ok ⟨.tc4, [⟨.value 101, .value 1023, .fault, .value 800, .value 600, .value 400, .err⟩]⟩ := by decide
theorem test_script_config : parseScript ["config TC5".toList] = .error (1, .unknownName) := by decide

/-! ## Sample source (95_test_vectors.md 3.1) -/

/-- V-SMP-1. -/
theorem test_sampleSpeed_stores :
    sees (fun t => (t.speedS, t.op)) (exec .sampleSpeed (atOp tc1 1 [ackEdge 150])) = some (150, 0x2#4) := by decide
/-- V-SMP-2. -/
theorem test_sampleShape_stores :
    sees (fun t => (t.shapeS, t.op)) (exec .sampleShape (atOp tc1 3 [ackEdge 0])) = some (0, 0x4#4) := by decide
/-- V-SMP-3. -/
theorem test_samplePhase_stores :
    sees (fun t => (t.phaseS, t.op)) (exec .samplePhase (atOp tc1 4 [ackEdge 1023])) = some (1023, 0x5#4) := by decide
/-- V-FLT-1. -/
theorem test_samplePhase_faults :
    sees (fun t => (t.phaseS, t.op, t.faultCode, t.faultOp)) (exec .samplePhase { atOp tc1 4 [smpFaultEdge] with phaseS := 16 })
      = some (16, 0xF#4, 1#2, 0x4#4) := by decide
/-- V-SMP-4. -/
theorem test_sampleRed_holds :
    sees (fun t => decide (t = atOp tc1 5 [PortInputs.idle])) (exec .sampleRed (atOp tc1 5 [PortInputs.idle])) = some true ∧
    smpReq (atOp tc1 5 []) = true ∧ smpCh (atOp tc1 5 []) = 0#3 := by decide
/-- V-SMP-5. -/
theorem test_sampleGreen_faults :
    sees (fun t => (t.greenS, t.op, t.faultCode, t.faultOp)) (exec .sampleGreen { atOp tc1 6 [smpFaultEdge] with greenS := 5 })
      = some (5, 0xF#4, 1#2, 0x6#4) := by decide
/-- V-SMP-6. -/
theorem test_sampleBlue_faults :
    sees (fun t => (t.op, t.faultCode, t.faultOp)) (exec .sampleBlue (atOp tc1 7 [{ PortInputs.idle with smpFault := true }]))
      = some (0xF#4, 1#2, 0x7#4) := by decide
/-- V-SMP-7. -/
theorem test_sampleBlue_stores :
    sees (fun t => (t.blueS, t.op)) (exec .sampleBlue (atOp tc1 7 [ackEdge 1023])) = some (1023, 0x8#4) := by decide
/-- V-SMP-8. -/
theorem test_channels :
    [0x1#4, 0x3#4, 0x4#4, 0x5#4, 0x6#4, 0x7#4].map (fun c => smpCh (atOp tc1 c [])) = [3#3, 4#3, 5#3, 0#3, 1#3, 2#3] := by
  decide

/-! ## Waveform synthesis (95_test_vectors.md 3.2 to 3.5) -/

/-- V-IDX-4, V-IDX-7, V-IDX-8, V-IDX-9, V-IDX-10. -/
theorem test_index_256 :
    (waveIndex tc1 250 1 80).val = 4 ∧ (waveIndex tc1 256 2 1023).val = 254 ∧ (waveIndex tc1 0xFFFFFFFF 2 1023).val = 253 ∧
    (waveIndex tc1 7 1 7).val = 7 ∧ (waveIndex tc1 7 2 8).val = 9 := by decide
/-- V-IDX-12, V-IDX-15, V-IDX-16, V-IDX-17: the sum is exact. -/
theorem test_index_360 :
    (waveIndex tc3 1000 1 80).val = 290 ∧ (waveIndex tc3 359 2 1023).val = 253 ∧
    (waveIndex tc3 0xFFFFFFFF 0 0).val = 255 ∧ (waveIndex tc3 0xFFFFFFFF 2 1023).val = 149 := by decide
/-- 95_test_vectors.md 3.3. -/
theorem test_lut :
    lut tc1 (0 : Fin 256) = 128#8 ∧ lut tc1 (127 : Fin 256) = 255#8 ∧ lut tc1 (128 : Fin 256) = 0#8 ∧
    lut tc1 (220 : Fin 256) = 92#8 := by decide
/-- V-MAC-1, V-MAC-3, V-MAC-5, V-MAC-7, V-MAC-8, V-MAC-14. -/
theorem test_mac_tc1 :
    mac tc1 1023 128 0 = 255#8 ∧ mac tc1 1023 255 1023 = 254#8 ∧ mac tc1 1023 128 1023 = 127#8 ∧
    mac tc1 512 200 512 = 113#8 ∧ mac tc1 700 64 300 = 136#8 ∧ mac tc1 1023 255 1 = 255#8 := by decide
/-- V-MAC-10 to V-MAC-13: the reduction wraps, it does not clamp. -/
theorem test_mac_tc2 :
    mac tc2 256 128 0 = 255#8 ∧ mac tc2 257 128 0 = 0#8 ∧ mac tc2 1023 128 0 = 254#8 ∧ mac tc2 1023 255 1023 = 250#8 ∧
    mac tc2 600 100 400 = 200#8 := by decide
/-- V-SYN-1. -/
theorem test_synthRed :
    sees (fun t => (t.rV, t.op)) (exec .synthRed { atOp tc1 8 [] with redS := 1023 }) = some (255#8, 0x9#4) := by decide
/-- V-SYN-2, V-SYN-4. -/
theorem test_synthGreen :
    sees (fun t => (t.gV, t.op)) (exec .synthGreen { atOp tc1 9 [] with phaseS := 80, greenS := 512, shapeS := 512 })
      = some (98#8, 0xA#4) ∧
    sees (fun t => t.gV) (exec .synthGreen { atOp tc1 9 [] with time := 500, phaseS := 80, greenS := 512, shapeS := 1023 })
      = some 62#8 := by decide
/-- V-SYN-3, V-SYN-5. -/
theorem test_synthBlue :
    sees (fun t => (t.bV, t.op)) (exec .synthBlue { atOp tc1 0xA [] with phaseS := 80, blueS := 1023, shapeS := 1023 })
      = some (147#8, 0xB#4) ∧
    sees (fun t => t.bV) (exec .synthBlue { atOp tc1 0xA [] with time := 1500, blueS := 700 }) = some 174#8 := by decide

/-! ## History buffer, strip writer, frame scheduler (95_test_vectors.md 3.6 to 3.10) -/

/-- V-PUSH-1. -/
theorem test_pushFront :
    sees (fun t => (t.hist, t.op)) (exec .pushFront { atOp tc1 0xB [] with
      hist := [0x111111, 0x222222, 0x333333, 0x444444], rV := 0xAA, gV := 0xBB, bV := 0xCC })
      = some ([0xAABBCC, 0x111111, 0x222222, 0x333333], 0xC#4) := by decide
/-- V-PUSH-3: one slot. -/
theorem test_pushFront_one :
    sees (fun t => t.hist) (exec .pushFront { atOp tc4 0xB [] with hist := [0x634C33], rV := 101, gV := 77, bV := 52 })
      = some [0x654D34] := by decide
/-- V-WR-3, V-WR-4: the error beats the completion. -/
theorem test_writeStrip_halt :
    sees (fun t => (t.op, t.faultCode, t.faultOp)) (exec .writeStrip (atOp tc1 0xC [wrErrEdge])) = some (0xF#4, 2#2, 0xC#4) := by
  decide
/-- V-WR-5. -/
theorem test_writeStrip_skip :
    sees (fun t => (t.op, t.faultCode)) (exec .writeStrip (atOp tc4 0xC [wrErrEdge])) = some (0xD#4, 0#2) := by decide
/-- V-WR-6, with two more slots. -/
theorem test_wr_colors :
    (wrColors { atOp tc1 0xC [] with hist := [0xFF7F00, 0x0000FF, 0, 0] }).toNat = 0x0000FFFF7F00 := by decide
/-- 95_test_vectors.md 3.8, TC1. -/
theorem test_delay_tc1 :
    [0, 99, 100, 101, 150, 350, 599, 600, 601, 1023].map (delayOf tc1) = [0, 0, 0, 2, 100, 500, 998, 1000, 1000, 1000] := by
  decide
/-- 95_test_vectors.md 3.8, TC3, and the whole of the step. -/
theorem test_delay_tc3 :
    [0, 100, 102, 103, 104, 600].map (delayOf tc3) = [5, 5, 5, 6, 8, 1000] ∧
    sees (fun t => (t.delayMs, t.remaining, t.op)) (exec .deriveDelay { atOp tc3 2 [] with speedS := 103 })
      = some (6#32, 6#32, 0x3#4) := by decide
/-- V-TICK-1's first edge, V-TICK-4. -/
theorem test_waitTick_counts :
    sees (fun t => (t.time, t.remaining, t.op)) (exec .waitTick { atOp tc1 0xD [tick] with time := 7, remaining := 2 })
      = some (8#32, 1#32, 0xD#4) ∧
    sees (fun t => (t.time, t.remaining)) (exec .waitTick { atOp tc1 0xD [tick] with time := 0xFFFFFFFF, remaining := 1 })
      = some (0#32, 0#32) := by decide
/-- V-TICK-2: the tick of the exit edge is not counted. -/
theorem test_waitTick_exits :
    sees (fun t => (t.time, t.op)) (exec .waitTick { atOp tc1 0xD [tick] with time := 7 }) = some (7#32, 0x1#4) := by decide
/-- V-TICK-5. -/
theorem test_tick_elsewhere :
    sees (fun t => t.time) (exec .synthRed { atOp tc1 8 [tick] with time := 7 }) = some 7#32 := by decide
/-- V-INIT-1. -/
theorem test_init : sees (fun t => decide (t = atOp tc1 1 [])) (exec .init (atOp tc1 0 [])) = some true := by decide
/-- V-HALT-1. -/
theorem test_halted :
    sees (fun t => decide (t = atOp tc1 0xF [answeringEdge])) (exec .halted (atOp tc1 0xF [answeringEdge])) = some true := by
  decide
/-- V-RST-2, over the reset of a halted block. -/
theorem test_reset_beats_halted :
    sees (fun t => decide (t = State.afterReset tc1 [] 1)) (step { atOp tc1 0xF [resetEdge] with
      faultCode := 1, faultOp := 4, time := 9, hist := [1, 2, 3, 4] }) = some true := by decide
/-- The canonical form of the History Buffer after reset: 60 entries in the reference build. -/
theorem test_reset_memory : Memory.wf State.reset.cfg State.reset.hist = true ∧ State.reset.hist.length = 60 := by decide
/-- 30_encoding.md R62, 70_reset_and_hazards.md R137, 60_exceptions.md R122: the three refusals. -/
theorem test_refusals :
    refusedBy .reservedOp (step (atOp tc1 0xE [PortInputs.idle])) = true ∧
    refusedBy .noResetSincePowerOn (step { atOp tc1 1 [ackEdge 1] with resetSeen := false }) = true ∧
    refusedBy .unsupportedOpRecorded (step { atOp tc1 0xF [PortInputs.idle] with faultCode := 3 }) = true := by decide

/-! ## Witnesses: a state and operands that meet each statement's hypotheses -/

/-- A frame's answers: delay 2 under TC1 (95_test_vectors.md P4). -/
def answers : FrameAnswers := ⟨101, 1023, 16, 800, 600, 0⟩
/-- Its head, with a hold edge in the first handshake and in the last. -/
def headEdges : List PortInputs :=
  [PortInputs.idle, ackEdge 101] ++ [tick] ++ [ackEdge 1023] ++ [ackEdge 16] ++ [ackEdge 800] ++ [ackEdge 600] ++ [ackEdge 0] ++
    List.replicate 4 tick ++ [PortInputs.idle, doneEdge]
/-- The whole frame's edges, with a hold edge between the two ticks. -/
def wholeFrame : List PortInputs := headEdges ++ [tick, PortInputs.idle, tick] ++ [tick]
/-- SAMPLE_SPEED in TC1, with these edges to come. -/
def frameStart (l : List PortInputs) : State := atOp tc1 1 l

/-- The state SAMPLE_SPEED starts in after reset meets the invariant, whatever edges are to come. -/
theorem frameStart_inv (l : List PortInputs) : Inv (frameStart l) where
  reset_seen := rfl
  hist_length := rfl
  samples := by simp [frameStart, atOp, State.afterReset]
  op_defined := by simp [frameStart, atOp]
  fault_iff_halted := by simp [frameStart, atOp, State.afterReset]
  fault_record := .inl ⟨rfl, rfl⟩
  delay_range := .inl rfl
  delay_written := by simp [frameStart, atOp, inFrameBody]
  remaining_full := by simp [frameStart, atOp, inFrameBody]
  remaining_le := Nat.le_refl _
  remaining_none := fun _ => rfl
  init_is_reset := by simp [frameStart, atOp]

/-- A conversion without hold edges, for every value up to FULL_SCALE. -/
theorem conversion_at_once (v : Nat) (h : v < 1024) : Conversion tc1 v [ackEdge v] :=
  ⟨[], ackEdge v, rfl, by simp, rfl, rfl, rfl, Nat.mod_eq_of_lt h⟩

theorem witness_FrameHead : FrameHead tc1 answers headEdges :=
  ⟨_, _, _, _, _, _, _, _, _, rfl, ⟨[PortInputs.idle], ackEdge 101, rfl, by decide, rfl, rfl, rfl, rfl⟩, ⟨rfl, by simp [noReset, tick, PortInputs.idle]⟩,
    conversion_at_once 1023 (by decide), conversion_at_once 16 (by decide), conversion_at_once 800 (by decide),
    conversion_at_once 600 (by decide), conversion_at_once 0 (by decide), ⟨rfl, by simp [noReset, tick, PortInputs.idle]⟩,
    [PortInputs.idle], doneEdge, rfl, by decide, rfl, rfl, rfl⟩

theorem witness_FaultFreeFrame : FaultFreeFrame tc1 answers wholeFrame :=
  ⟨headEdges, [tick, PortInputs.idle, tick], [tick], rfl, witness_FrameHead, ⟨by simp [noReset, tick, PortInputs.idle], rfl, by simp [tick]⟩,
    rfl, by simp [noReset, tick, PortInputs.idle]⟩

/-! ### Encodings -/

theorem witness_StepSequenceEncodingRoundTrip :
    decodeAll [0x1#4, 0xF#4] = .ok [.sampleSpeed, .halted] ∧ 0xE#4 ∉ [0x0#4, 0xF#4] ∧ decodeAll [0xE#4] = .error .reservedOp := by
  decide
theorem witness_TraceLineTextRoundTrip :
    TraceLine.wellFormed TestConfig.base ⟨.sampleSpeed, .ack 1023⟩ ∧ TraceLine.wellFormed TestConfig.base ⟨.sampleBlue, .ack 0⟩ ∧
    TraceLine.wellFormed TestConfig.base ⟨.waitTick, .exit⟩ ∧ TraceLine.wellFormed TestConfig.base ⟨.writeStrip, .err⟩ := by
  simp [TraceLine.wellFormed, Instr.isSample, Params.fullScale, TestConfig.base]
theorem witness_OnlyFourBitsDecode : (16 : Nat) ≤ 16 ∧ decodeBytes [0x0F#8, 0#8] = .ok .halted := by decide

/-! ### The edge -/

theorem witness_EdgeRunsTheDecodedStep : ∃ t,
    (atOp tc1 0xB [tick]).now.rst = false ∧ (atOp tc1 0xB [tick]).resetSeen = true ∧ (atOp tc1 0xB [tick]).faultCode ≠ 3#2 ∧
    decodeOp (atOp tc1 0xB [tick]).op = .ok .pushFront ∧ exec .pushFront (atOp tc1 0xB [tick]) = .next t :=
  ⟨_, rfl, rfl, by decide, rfl, rfl⟩
theorem witness_PlacedWordRunsNext : ∃ t, (atOp tc1 0 []).faultCode ≠ 3#2 ∧
    exec .waitTick ((atOp tc1 0 []).withFetchWord 8 (encode .waitTick).toNat) = .next t := ⟨_, by decide, rfl⟩
theorem witness_ResetEdgeGivesResetValues : (atOp tc1 0xF [resetEdge]).now.rst = true := rfl
theorem witness_ResetMayBeHeld :
    (∀ j, j ≤ 1 → ((atOp tc1 0xF [resetEdge, resetEdge]).inputAt j).rst = true) ∧
    ∃ t, (atOp tc1 0xF [resetEdge]).op = 0xF#4 ∧ step (atOp tc1 0xF [resetEdge]) = .next t ∧ t.op ≠ 0xF#4 :=
  ⟨by decide, _, rfl, rfl, by decide⟩
theorem witness_FirstEdgesAfterReset : (ackEdge 1).rst = false ∧ PortInputs.idle.rst = false := by decide
theorem witness_ReservedOpRefusedAndNeverReached :
    ((atOp tc1 0xE [tick]).op = 0xE#4 ∧ (atOp tc1 0xE [tick]).now.rst = false) ∧
    ∃ t, step (atOp tc1 0xE [resetEdge]) = .next t := ⟨by decide, _, rfl⟩
theorem witness_UnsupportedOpNeverProduced :
    (∃ t, step { atOp tc1 0xF [resetEdge] with faultCode := 3 } = .next t) ∧
    { atOp tc1 0xF [tick] with faultCode := 3 }.faultCode = 3#2 ∧ { atOp tc1 0xF [tick] with faultCode := 3 }.now.rst = false :=
  ⟨⟨_, rfl⟩, rfl, rfl⟩
theorem witness_PowerOnNeedsReset :
    ({ atOp tc1 5 [tick] with resetSeen := false }.resetSeen = false ∧
      { atOp tc1 5 [tick] with resetSeen := false }.now.rst = false) ∧
    { atOp tc1 5 [resetEdge] with resetSeen := false }.resetSeen = false ∧
    { atOp tc1 5 [resetEdge] with resetSeen := false }.now.rst = true := by decide

/-! ### Frame scheduler steps -/

/-- The bounds of each clause under TC1: speed OFFSET, and the first speed that saturates, 100 + 500. -/
theorem witness_DelayLawIsClampedAndMonotone :
    (∃ t, { atOp tc1 2 [] with speedS := 100 }.speedS ≤ tc1.offset ∧
      exec .deriveDelay { atOp tc1 2 [] with speedS := 100 } = .next t) ∧
    (∃ t u, 0 < tc1.scale ∧ tc1.offset + (tc1.maxDelay + tc1.scale - 1) / tc1.scale ≤ 600 ∧
      exec .deriveDelay { atOp tc1 2 [] with speedS := 600 } = .next t ∧
      exec .deriveDelay { atOp tc1 2 [] with speedS := 601 } = .next u) :=
  ⟨⟨_, by decide, rfl⟩, _, _, by decide, by decide, rfl, rfl⟩
theorem witness_WaitTickExitsCountsOrHolds :
    (atOp tc1 0xD [tick]).remaining = 0#32 ∧
    ({ atOp tc1 0xD [tick] with remaining := 1 }.remaining ≠ 0#32 ∧
      { atOp tc1 0xD [tick] with remaining := 1 }.now.msTick = true) ∧
    { atOp tc1 0xD [PortInputs.idle] with remaining := 0xFFFFFFFF }.remaining ≠ 0#32 ∧
    { atOp tc1 0xD [PortInputs.idle] with remaining := 0xFFFFFFFF }.now.msTick = false := by decide
theorem witness_WaitTickCountsEveryTick :
    let s : State := { atOp tc1 0xD [PortInputs.idle, tick, tick, ackEdge 1] with time := 0xFFFFFFFF, remaining := 2 }
    s.op = 0xD#4 ∧ s.resetSeen = true ∧ s.faultCode ≠ 3#2 ∧ s.stim = [PortInputs.idle, tick, tick] ++ [ackEdge 1] ∧
    Counting 2 [PortInputs.idle, tick, tick] ∧ 2 ≤ s.remaining.toNat :=
  ⟨rfl, rfl, by decide, rfl, ⟨by simp [noReset, tick, PortInputs.idle], rfl, by simp [tick]⟩, by decide⟩
theorem witness_HaltedChangesNothing : (atOp tc1 0xF []).op = 0xF#4 := rfl
theorem witness_HaltedIsPermanent :
    (atOp tc1 0xF [tick, ackEdge 5]).op = 0xF#4 ∧ (atOp tc1 0xF [tick, ackEdge 5]).resetSeen = true ∧
    (atOp tc1 0xF [tick, ackEdge 5]).faultCode ≠ 3#2 ∧ ∀ j, j < 2 → ((atOp tc1 0xF [tick, ackEdge 5]).inputAt j).rst = false := by
  decide

/-! ### Sample source steps: the request, the fault, the store at both ends of a sample's range, the hold -/

theorem witness_SampleSpeedStoresFaultsOrHolds :
    (atOp tc1 1 []).op = 0x1#4 ∧ (atOp tc1 1 [smpFaultEdge]).now.smpFault = true ∧
    ((atOp tc1 1 [ackEdge 0]).now.smpFault = false ∧ (atOp tc1 1 [ackEdge 0]).now.smpAck = true) ∧
    (atOp tc1 1 [tick]).now.smpFault = false ∧ (atOp tc1 1 [tick]).now.smpAck = false := by decide
theorem witness_SampleShapeStoresFaultsOrHolds :
    (atOp tc1 3 []).op = 0x3#4 ∧ (atOp tc1 3 [smpFaultEdge]).now.smpFault = true ∧
    ((atOp tc1 3 [ackEdge 1023]).now.smpFault = false ∧ (atOp tc1 3 [ackEdge 1023]).now.smpAck = true) ∧
    (atOp tc1 3 [tick]).now.smpFault = false ∧ (atOp tc1 3 [tick]).now.smpAck = false := by decide
theorem witness_SamplePhaseStoresFaultsOrHolds :
    (atOp tc1 4 []).op = 0x4#4 ∧ (atOp tc1 4 [smpFaultEdge]).now.smpFault = true ∧
    ((atOp tc1 4 [ackEdge 0]).now.smpFault = false ∧ (atOp tc1 4 [ackEdge 0]).now.smpAck = true) ∧
    (atOp tc1 4 [tick]).now.smpFault = false ∧ (atOp tc1 4 [tick]).now.smpAck = false := by decide
theorem witness_SampleRedStoresFaultsOrHolds :
    (atOp tc1 5 []).op = 0x5#4 ∧ (atOp tc1 5 [smpFaultEdge]).now.smpFault = true ∧
    ((atOp tc1 5 [ackEdge 1023]).now.smpFault = false ∧ (atOp tc1 5 [ackEdge 1023]).now.smpAck = true) ∧
    (atOp tc1 5 [tick]).now.smpFault = false ∧ (atOp tc1 5 [tick]).now.smpAck = false := by decide
theorem witness_SampleGreenStoresFaultsOrHolds :
    (atOp tc1 6 []).op = 0x6#4 ∧ (atOp tc1 6 [smpFaultEdge]).now.smpFault = true ∧
    ((atOp tc1 6 [ackEdge 0]).now.smpFault = false ∧ (atOp tc1 6 [ackEdge 0]).now.smpAck = true) ∧
    (atOp tc1 6 [tick]).now.smpFault = false ∧ (atOp tc1 6 [tick]).now.smpAck = false := by decide
theorem witness_SampleBlueStoresFaultsOrHolds :
    (atOp tc1 7 []).op = 0x7#4 ∧ (atOp tc1 7 [smpFaultEdge]).now.smpFault = true ∧
    ((atOp tc1 7 [ackEdge 1023]).now.smpFault = false ∧ (atOp tc1 7 [ackEdge 1023]).now.smpAck = true) ∧
    (atOp tc1 7 [tick]).now.smpFault = false ∧ (atOp tc1 7 [tick]).now.smpAck = false := by decide

/-! ### Waveform synthesis steps -/

theorem witness_WaveIndexReductions : tc1.tableLen = 256 := rfl
theorem witness_TimeWrapMovesTheIndexToZero :
    let s : State := { atOp tc3 0xD [tick] with time := 0xFFFFFFFF, remaining := 1 }
    s.time = 0xFFFFFFFF#32 ∧ s.remaining ≠ 0#32 ∧ s.now.msTick = true := by decide
theorem witness_CrossFadeEnds :
    (∃ r g b, { atOp tc1 8 [] with redS := 1023 }.shapeS = 0 ∧ exec .synthRed { atOp tc1 8 [] with redS := 1023 } = .next r ∧
      exec .synthGreen (atOp tc1 9 []) = .next g ∧ exec .synthBlue (atOp tc1 0xA []) = .next b) ∧
    ∃ r g b, 1023 = 2 ^ tc1.sampleBits - 1 ∧ exec .synthRed { atOp tc1 8 [] with shapeS := 1023, redS := 1023 } = .next r ∧
      exec .synthGreen { atOp tc1 9 [] with shapeS := 1023 } = .next g ∧
      exec .synthBlue { atOp tc1 0xA [] with shapeS := 1023 } = .next b :=
  ⟨⟨_, _, _, rfl, rfl, rfl, rfl⟩, _, _, _, rfl, rfl, rfl, rfl⟩
theorem witness_DatapathWidthsSuffice : 1023 ≤ tc1.fullScale ∧ 0 ≤ tc1.fullScale := by decide
/-- TC2, w = 128, shape 0: 256 is the last channel sample whose unreduced value is at most 255. -/
theorem witness_ChannelMonotoneWhereCalibrated :
    (255 : Nat) ≤ 256 ∧ 256 ≤ tc2.fullScale ∧ specSum tc2.toParams 256 (128#8).toNat 0 = 255 := by decide
theorem witness_SmallPhaseGivesEqualChannels : ∃ s₁ s₂ s₃,
    let s : State := { atOp tc1 8 [] with phaseS := 7, redS := 512, greenS := 512, blueS := 512 }
    s.phaseS < 8 ∧ exec .synthRed s = .next s₁ ∧ exec .synthGreen s₁ = .next s₂ ∧ exec .synthBlue s₂ = .next s₃ ∧
    s.redS = s.greenS ∧ s.greenS = s.blueS := ⟨_, _, _, by decide, rfl, rfl, rfl, rfl, rfl⟩

/-! ### History buffer and strip writer -/

theorem witness_PushFrontInsertsAtTheHead : Memory.wf tc4 (atOp tc4 0xB []).hist = true := by decide
/-- NUM_LEDS = 4: the entries 1 and 3 are the ends of the middle clause, 4 the first of the last. -/
theorem witness_PushFrontShiftsEveryEntry :
    (∃ t, Memory.wf tc1 (atOp tc1 0xB []).hist = true ∧ exec .pushFront (atOp tc1 0xB []) = .next t) ∧
    (1 ≤ 1 ∧ 3 < tc1.numLeds ∧ tc1.numLeds ≤ 4) ∧
    ∃ t, Instr.init ≠ .pushFront ∧ exec .init (atOp tc1 0 []) = .next t := ⟨⟨_, rfl, rfl⟩, by decide, _, by decide, rfl⟩
theorem witness_WriteStripCompletesFaultsOrHolds :
    ((atOp tc1 0xC [wrErrEdge]).now.wrErr = true ∧ tc1.txFaultPolicy = .halt) ∧
    ((atOp tc4 0xC [wrErrEdge]).now.wrErr = true ∧ tc4.txFaultPolicy = .skip) ∧
    ((atOp tc1 0xC [doneEdge]).now.wrErr = false ∧ (atOp tc1 0xC [doneEdge]).now.wrDone = true) ∧
    (atOp tc1 0xC [tick]).now.wrErr = false ∧ (atOp tc1 0xC [tick]).now.wrDone = false := by decide
theorem witness_StripFrameIsStable : ∃ t,
    let s := atOp tc1 0xC [tick, PortInputs.idle, doneEdge]
    s.op = 0xC#4 ∧ s.resetSeen = true ∧ s.faultCode ≠ 3#2 ∧ (∀ j, j ≤ 2 → (s.inputAt j).rst = false) ∧
    (∀ j, j < 2 → (s.inputAt j).wrDone = false ∧ (s.inputAt j).wrErr = false) ∧ Host.Core.run Sys2Proof.core 3 s = .next t :=
  ⟨_, by decide, by decide, by decide, by decide, by decide, rfl⟩

/-! ### Faults -/

theorem witness_SampleFaultNamesItsStep : Instr.sampleGreen.isSample = true ∧ (atOp tc1 6 [smpFaultEdge]).now.smpFault = true := by
  decide
theorem witness_FaultEntryIsPrecise :
    (∃ t, (atOp tc1 4 [smpFaultEdge]).op = encode .samplePhase ∧ Instr.samplePhase ≠ .halted ∧
      exec .samplePhase (atOp tc1 4 [smpFaultEdge]) = .next t ∧ t.op = 0xF#4) ∧
    ∃ t, (atOp tc1 0xC [wrErrEdge]).op = encode .writeStrip ∧ Instr.writeStrip ≠ .halted ∧
      exec .writeStrip (atOp tc1 0xC [wrErrEdge]) = .next t ∧ t.op = 0xF#4 :=
  ⟨⟨_, rfl, by decide, rfl, rfl⟩, _, rfl, by decide, rfl, rfl⟩
theorem witness_HaltComesFromReportedFailures :
    (∃ t, Inv (frameStart [ackEdge 5]) ∧ (frameStart [ackEdge 5]).op ≠ 0xF#4 ∧
      (∀ j, j < 1 → noFailure tc1 ((frameStart [ackEdge 5]).inputAt j)) ∧
      Host.Core.run Sys2Proof.core 1 (frameStart [ackEdge 5]) = .next t) ∧
    (Instr.sampleSpeed.isSample = true ∧ (frameStart []).op = encode .sampleSpeed ∧ (frameStart []).resetSeen = true ∧
      (frameStart []).faultCode ≠ 3#2) ∧
    (atOp tc1 0xC []).op = 0xC#4 ∧ tc1.txFaultPolicy = .halt ∧ (atOp tc1 0xC []).resetSeen = true ∧
    (atOp tc1 0xC []).faultCode ≠ 3#2 := by
  refine ⟨⟨_, frameStart_inv _, by decide, ?_, rfl⟩, by decide, by decide⟩
  intro j hj
  obtain rfl : j = 0 := by omega
  exact ⟨rfl, .inl rfl⟩
theorem witness_NoAnswerHoldsForEver :
    ((atOp tc1 5 [tick]).resetSeen = true ∧ (atOp tc1 5 [tick]).faultCode ≠ 3#2 ∧
      (∀ j, j < 1 → ((atOp tc1 5 [tick]).inputAt j).rst = false) ∧
      (Instr.sampleRed.isSample = true ∧ (atOp tc1 5 [tick]).op = encode .sampleRed) ∧
      ∀ j, j < 1 → ((atOp tc1 5 [tick]).inputAt j).smpAck = false ∧ ((atOp tc1 5 [tick]).inputAt j).smpFault = false) ∧
    ((atOp tc1 0xC [ackEdge 1]).op = 0xC#4 ∧ (∀ j, j < 1 → ((atOp tc1 0xC [ackEdge 1]).inputAt j).rst = false) ∧
      ∀ j, j < 1 → ((atOp tc1 0xC [ackEdge 1]).inputAt j).wrDone = false ∧
        ((atOp tc1 0xC [ackEdge 1]).inputAt j).wrErr = false) ∧
    let s : State := { atOp tc1 0xD [doneEdge] with remaining := 1 }
    s.op = 0xD#4 ∧ s.remaining ≠ 0#32 ∧ (∀ j, j < 1 → (s.inputAt j).rst = false) ∧
      ∀ j, j < 1 → (s.inputAt j).msTick = false := by decide

/-! ### Rules over all steps -/

theorem witness_SequencerFollowsTheTable :
    (∃ t, (atOp tc1 5 [ackEdge 1]).op = encode .sampleRed ∧ exec .sampleRed (atOp tc1 5 [ackEdge 1]) = .next t ∧
      completes .sampleRed (atOp tc1 5 [ackEdge 1])) ∧
    (∃ t, exec .sampleRed (atOp tc1 5 [smpFaultEdge]) = .next t ∧ ¬ completes .sampleRed (atOp tc1 5 [smpFaultEdge])) ∧
    ∃ t, (atOp tc1 0 []).op = encode .init ∧ exec .init (atOp tc1 0 []) = .next t ∧ completes .init (atOp tc1 0 []) :=
  ⟨⟨_, rfl, rfl, rfl, rfl⟩, ⟨_, rfl, fun h => absurd h.2 (by decide)⟩, _, rfl, rfl, trivial⟩
theorem witness_EachRegisterHasItsWriters : ∃ t, exec .waitTick { atOp tc1 0xD [tick] with remaining := 1 } = .next t := ⟨_, rfl⟩
theorem witness_TicksElsewhereAreNotCounted :
    (∃ t, Instr.sampleRed ≠ .waitTick ∧ (atOp tc1 5 [ackEdge 1]).stim = ackEdge 1 :: [] ∧
      exec .sampleRed (atOp tc1 5 [ackEdge 1]) = .next t) ∧
    ∃ t, (atOp tc1 0xD [tick]).remaining = 0#32 ∧ (atOp tc1 0xD [tick]).stim = tick :: [] ∧
      exec .waitTick (atOp tc1 0xD [tick]) = .next t := ⟨⟨_, by decide, rfl, rfl⟩, _, rfl, rfl, rfl⟩
theorem witness_EveryStepKeepsTheInvariant : ∃ t, Inv (frameStart [ackEdge 5]) ∧ step (frameStart [ackEdge 5]) = .next t :=
  ⟨_, frameStart_inv _, rfl⟩
theorem witness_RunsAreNeverRefused : Inv (frameStart []) := frameStart_inv _

/-! ### Ports and texts -/

theorem witness_SampleRequestPort :
    [0x5#4, 0x6#4, 0x7#4, 0x1#4, 0x3#4, 0x4#4].map (fun c => (atOp tc1 c []).op) = [0x5#4, 0x6#4, 0x7#4, 0x1#4, 0x3#4, 0x4#4] ∧
    smpReq (atOp tc1 0xE []) = false := by decide
theorem witness_StripPortLayout : Memory.wf tc1 (atOp tc1 0xC []).hist = true ∧ 0 < tc1.numLeds ∧ 3 < tc1.numLeds := by decide
theorem witness_TraceLinePerStateChange : ∃ t,
    (frameStart [ackEdge 5]).now.rst = false ∧ step (frameStart [ackEdge 5]) = .next t := ⟨_, rfl, rfl⟩
theorem witness_FrameLineStandsForAFrame : 1023 ≤ tc1.fullScale ∧ 0 ≤ tc1.fullScale := by decide
theorem witness_IllegalBuildsAreRefused :
    (TestConfig.params .tc1).Legal ∧ ¬ { TestConfig.base with numLeds := 0 }.Legal :=
  ⟨tc1.legal, fun h => absurd h.2.2.2.2.2.2 (by decide)⟩

/-! ### Frames -/

theorem witness_FaultFreeFrameFunction :
    Inv (frameStart (wholeFrame ++ [])) ∧ (frameStart (wholeFrame ++ [])).op = 0x1#4 ∧
    FaultFreeFrame (frameStart (wholeFrame ++ [])).cfg answers wholeFrame ∧
    (frameStart (wholeFrame ++ [])).stim = wholeFrame ++ [] := ⟨frameStart_inv _, rfl, witness_FaultFreeFrame, rfl⟩
theorem witness_FramesAccumulateTimeAndTrail :
    let fs := [(answers, wholeFrame), (answers, wholeFrame)]
    Inv (frameStart ((fs.map Prod.snd).flatten ++ [])) ∧ (frameStart ((fs.map Prod.snd).flatten ++ [])).op = 0x1#4 ∧
    FaultFreeFrames tc1 fs ∧
    (frameStart ((fs.map Prod.snd).flatten ++ [])).stim = (fs.map Prod.snd).flatten ++ [] := by
  refine ⟨frameStart_inv _, rfl, ?_, rfl⟩
  intro f hf
  obtain rfl : f = (answers, wholeFrame) := by simpa using hf
  exact witness_FaultFreeFrame
theorem witness_FramesFromReset : tick.rst = false ∧ FaultFreeFrames tc1 [(answers, wholeFrame)] := by
  refine ⟨rfl, ?_⟩
  intro f hf
  obtain rfl : f = (answers, wholeFrame) := by simpa using hf
  exact witness_FaultFreeFrame
theorem witness_StatusLineOfTheFrame :
    Inv (frameStart (headEdges ++ [])) ∧ (frameStart (headEdges ++ [])).op = 0x1#4 ∧
    FrameHead (frameStart (headEdges ++ [])).cfg answers headEdges ∧ (frameStart (headEdges ++ [])).stim = headEdges ++ [] :=
  ⟨frameStart_inv _, rfl, witness_FrameHead, rfl⟩
theorem witness_FrameTraceEncoding :
    Inv (frameStart (wholeFrame ++ [tick])) ∧ (frameStart (wholeFrame ++ [tick])).op = 0x1#4 ∧
    FaultFreeFrame (frameStart (wholeFrame ++ [tick])).cfg answers wholeFrame ∧
    (frameStart (wholeFrame ++ [tick])).stim = wholeFrame ++ [tick] := ⟨frameStart_inv _, rfl, witness_FaultFreeFrame, rfl⟩

/-- DERIVE_DELAY in TC1 at speed 100, delay 0, with the twelve edges of the shortest way back to SAMPLE_SPEED. -/
def shortFrame : State := { atOp tc1 2 (List.replicate 12 answeringEdge) with speedS := 100 }

theorem witness_FrameTakesItsEdges : Inv shortFrame ∧ shortFrame.op = 0x2#4 ∧
    (∀ j, j < 12 → (shortFrame.inputAt j).rst = false) ∧
    sees State.op (Host.Core.run Sys2Proof.core 12 shortFrame) = some 0x1#4 := by
  refine ⟨?_, rfl, by decide, by decide⟩
  exact
    { reset_seen := rfl, hist_length := rfl, samples := by decide, op_defined := by decide, fault_iff_halted := by decide
      fault_record := .inl ⟨rfl, rfl⟩, delay_range := .inl rfl
      delay_written := by simp [shortFrame, atOp, inFrameBody]
      remaining_full := by simp [shortFrame, atOp, inFrameBody]
      remaining_le := Nat.le_refl _, remaining_none := fun _ => rfl
      init_is_reset := by simp [shortFrame, atOp] }

end Sys2Proof.Tests.Slice0
end

/-! # What one step can do, and the invariant of the machine

`exec_result` says once, for every instruction, which next states it can answer; the writers of each register and the
invariant are read off it. -/

section

namespace Sys2Proof.Machine

/-! ## The register write of a step that completes -/

/-- `s` with the registers written that step `i` writes when it completes, without the change of `op`
(10_state.md R24 to R30). -/
def State.written (s : State) : Instr → State
  | .sampleSpeed => { s with speedS := s.sampleIn }
  | .deriveDelay =>
    { s with delayMs := BitVec.ofNat 32 (delayOf s.cfg s.speedS), remaining := BitVec.ofNat 32 (delayOf s.cfg s.speedS) }
  | .sampleShape => { s with shapeS := s.sampleIn }
  | .samplePhase => { s with phaseS := s.sampleIn }
  | .sampleRed => { s with redS := s.sampleIn }
  | .sampleGreen => { s with greenS := s.sampleIn }
  | .sampleBlue => { s with blueS := s.sampleIn }
  | .synthRed => { s with rV := synthesize s 0 s.redS }
  | .synthGreen => { s with gV := synthesize s 1 s.greenS }
  | .synthBlue => { s with bV := synthesize s 2 s.blueS }
  | .pushFront => { s with hist := pushColor s.cfg (packColor s.rV s.gV s.bV) s.hist }
  | .init | .writeStrip | .waitTick | .halted => s

section WrittenFrame

variable (s : State) {i : Instr}

@[simp] theorem State.written_time : (s.written i).time = s.time := by cases i <;> rfl
@[simp] theorem State.written_faultCode : (s.written i).faultCode = s.faultCode := by cases i <;> rfl
@[simp] theorem State.written_faultOp : (s.written i).faultOp = s.faultOp := by cases i <;> rfl
@[simp] theorem State.written_cfg : (s.written i).cfg = s.cfg := by cases i <;> rfl
@[simp] theorem State.written_resetSeen : (s.written i).resetSeen = s.resetSeen := by cases i <;> rfl
@[simp] theorem State.written_stim : (s.written i).stim = s.stim := by cases i <;> rfl
@[simp] theorem State.written_edge : (s.written i).edge = s.edge := by cases i <;> rfl

theorem State.written_speedS_of_ne (h : i ≠ .sampleSpeed) : (s.written i).speedS = s.speedS := by
  cases i <;> simp [State.written] at h ⊢
theorem State.written_shapeS_of_ne (h : i ≠ .sampleShape) : (s.written i).shapeS = s.shapeS := by
  cases i <;> simp [State.written] at h ⊢
theorem State.written_phaseS_of_ne (h : i ≠ .samplePhase) : (s.written i).phaseS = s.phaseS := by
  cases i <;> simp [State.written] at h ⊢
theorem State.written_redS_of_ne (h : i ≠ .sampleRed) : (s.written i).redS = s.redS := by
  cases i <;> simp [State.written] at h ⊢
theorem State.written_greenS_of_ne (h : i ≠ .sampleGreen) : (s.written i).greenS = s.greenS := by
  cases i <;> simp [State.written] at h ⊢
theorem State.written_blueS_of_ne (h : i ≠ .sampleBlue) : (s.written i).blueS = s.blueS := by
  cases i <;> simp [State.written] at h ⊢
theorem State.written_rV_of_ne (h : i ≠ .synthRed) : (s.written i).rV = s.rV := by
  cases i <;> simp [State.written] at h ⊢
theorem State.written_gV_of_ne (h : i ≠ .synthGreen) : (s.written i).gV = s.gV := by
  cases i <;> simp [State.written] at h ⊢
theorem State.written_bV_of_ne (h : i ≠ .synthBlue) : (s.written i).bV = s.bV := by
  cases i <;> simp [State.written] at h ⊢
theorem State.written_hist_of_ne (h : i ≠ .pushFront) : (s.written i).hist = s.hist := by
  cases i <;> simp [State.written] at h ⊢
theorem State.written_delayMs_of_ne (h : i ≠ .deriveDelay) : (s.written i).delayMs = s.delayMs := by
  cases i <;> simp [State.written] at h ⊢
theorem State.written_remaining_of_ne (h : i ≠ .deriveDelay) : (s.written i).remaining = s.remaining := by
  cases i <;> simp [State.written] at h ⊢

end WrittenFrame

/-! ## The next states of a step -/

/-- Step `i` stays where it is on this edge: no answer has come, no millisecond has passed, or the block is halted
(44_frame_scheduler.md R106). -/
def waits (i : Instr) (s : State) : Prop :=
  match i with
  | .sampleSpeed | .sampleShape | .samplePhase | .sampleRed | .sampleGreen | .sampleBlue =>
    s.now.smpFault = false ∧ s.now.smpAck = false
  | .writeStrip => s.now.wrErr = false ∧ s.now.wrDone = false
  | .waitTick => s.remaining ≠ 0#32 ∧ s.now.msTick = false
  | .halted => True
  | .init | .deriveDelay | .synthRed | .synthGreen | .synthBlue | .pushFront => False

/-- The next states of step `i` in state `s`, each with its condition. -/
inductive ExecResult (i : Instr) (s : State) : State → Prop where
  /-- The step completes (44_frame_scheduler.md R106). -/
  | completed (n : Instr) (hn : successor i = some n) (hc : completes i s) : ExecResult i s ((s.written i).goto n)
  /-- The sample source reports a failure (60_exceptions.md R120). -/
  | sampleFault (hi : i.isSample = true) (hf : s.now.smpFault = true) :
      ExecResult i s (s.enterFault FaultCode.sample i)
  /-- The strip writer reports a failure that the build takes as a fault (60_exceptions.md R121). -/
  | transmitFault (hi : i = .writeStrip) (he : s.now.wrErr = true) (hp : s.cfg.txFaultPolicy = .halt) :
      ExecResult i s (s.enterFault FaultCode.transmit i)
  /-- WAIT_TICK counts a millisecond (44_frame_scheduler.md R111). -/
  | counted (hi : i = .waitTick) (hr : s.remaining ≠ 0#32) (ht : s.now.msTick = true) : ExecResult i s s.countTick
  /-- The step holds. -/
  | held (hw : waits i s) : ExecResult i s s

theorem completes_of_isSample {i : Instr} {s : State} (hi : i.isSample = true) (ha : s.now.smpAck = true)
    (hf : s.now.smpFault = false) : completes i s := by
  cases i <;> cases hi <;> exact ⟨ha, hf⟩

theorem waits_of_isSample {i : Instr} {s : State} (hi : i.isSample = true) (hf : s.now.smpFault = false)
    (ha : s.now.smpAck = false) : waits i s := by
  cases i <;> cases hi <;> exact ⟨hf, ha⟩

/-- The sample handshake, as one of the five results (40_sample_source.md R73, R74). -/
theorem sampleHandshake_result {i n : Instr} {s t : State} (hi : i.isSample = true) (hn : successor i = some n)
    (h : sampleHandshake i n (s.written i) s = .next t) : ExecResult i s t := by
  obtain ⟨hf, rfl⟩ | ⟨hf, ha, rfl⟩ | ⟨hf, ha, rfl⟩ := sampleHandshake_cases h
  · exact .sampleFault hi hf
  · exact .completed n hn (completes_of_isSample hi ha hf)
  · exact .held (waits_of_isSample hi hf ha)

theorem execWriteStrip_result {s t : State} (h : execWriteStrip s = .next t) : ExecResult .writeStrip s t := by
  obtain ⟨he, hp, rfl⟩ | ⟨⟨he, hp⟩ | ⟨he, hd⟩, rfl⟩ | ⟨he, hd, rfl⟩ := stripHandshake_cases h
  · exact .transmitFault rfl he hp
  · exact .completed .waitTick rfl (.inr ⟨he, hp⟩)
  · exact .completed .waitTick rfl (.inl ⟨hd, he⟩)
  · exact .held ⟨he, hd⟩

theorem execWaitTick_result {s t : State} (h : execWaitTick s = .next t) : ExecResult .waitTick s t := by
  obtain ⟨hr, rfl⟩ | ⟨hr, ht, rfl⟩ | ⟨hr, ht, rfl⟩ := execWaitTick_cases h
  · exact .completed .sampleSpeed rfl hr
  · exact .counted rfl hr ht
  · exact .held ⟨hr, ht⟩

/-- Everything a step can do: each next state that it answers is one of the five results. -/
theorem exec_result {i : Instr} {s t : State} (h : exec i s = .next t) : ExecResult i s t := by
  cases i
  case init => cases h; exact .completed .sampleSpeed rfl trivial
  case deriveDelay => cases h; exact .completed .sampleShape rfl trivial
  case synthRed => cases h; exact .completed .synthGreen rfl trivial
  case synthGreen => cases h; exact .completed .synthBlue rfl trivial
  case synthBlue => cases h; exact .completed .pushFront rfl trivial
  case pushFront => cases h; exact .completed .writeStrip rfl trivial
  case halted => cases h; exact .held trivial
  case writeStrip => exact execWriteStrip_result h
  case waitTick => exact execWaitTick_result h
  all_goals exact sampleHandshake_result rfl rfl h

/-! ## The writers of each register -/

/-- Settles O45: completing writes the step's own registers, a fault the fault registers, a count `time` and
`remaining`, and holding nothing. -/
theorem eachRegisterHasItsWriters : Obligations.EachRegisterHasItsWriters := by
  intro i s t h
  cases exec_result h with
  | completed n hn hc =>
    exact ⟨fun _ => s.written_time, s.written_speedS_of_ne, s.written_shapeS_of_ne, s.written_phaseS_of_ne,
      s.written_redS_of_ne, s.written_greenS_of_ne, s.written_blueS_of_ne, s.written_rV_of_ne, s.written_gV_of_ne,
      s.written_bV_of_ne, s.written_hist_of_ne, s.written_delayMs_of_ne, fun hd _ => s.written_remaining_of_ne hd,
      fun _ _ => ⟨s.written_faultCode, s.written_faultOp⟩, s.written_cfg, s.written_resetSeen, s.written_stim,
      s.written_edge⟩
  | sampleFault hi hf => simp [hi]
  | transmitFault hi he hp => simp [hi]
  | counted hi hr ht => simp [hi]
  | held hw => simp

/-! ## The parts of the invariant -/

/-- What the invariant says of `delay_ms` and `remaining` (10_state.md R29, R30; 44_frame_scheduler.md R112, R114). -/
structure DelayInv (s : State) : Prop where
  range : s.delayMs = 0 ∨ (s.cfg.minDelay ≤ s.delayMs.toNat ∧ s.delayMs.toNat ≤ s.cfg.maxDelay)
  written : inFrameBody s.op ∨ s.op = 0xD#4 → s.cfg.minDelay ≤ s.delayMs.toNat ∧ s.delayMs.toNat ≤ s.cfg.maxDelay
  full : inFrameBody s.op → s.remaining = s.delayMs
  le : s.remaining.toNat ≤ s.delayMs.toNat
  idle : s.op = 0x0#4 ∨ s.op = 0x1#4 ∨ s.op = 0x2#4 → s.remaining = 0

theorem Inv.delayInv {s : State} (hs : Inv s) : DelayInv s :=
  ⟨hs.delay_range, hs.delay_written, hs.remaining_full, hs.remaining_le, hs.remaining_none⟩

/-- No state with the invariant holds fault code 3 (60_exceptions.md R122). -/
theorem Inv.faultCode_ne_unsupported {s : State} (hs : Inv s) : s.faultCode ≠ FaultCode.unsupported := by
  obtain ⟨hc, -⟩ | ⟨hc, -⟩ | ⟨hc, -⟩ := hs.fault_record <;> rw [hc] <;> decide

theorem Inv.faultCode_eq_zero {s : State} (hs : Inv s) (h : s.op ≠ 0xF#4) : s.faultCode = 0#2 := by
  by_contra hc
  exact h (hs.fault_iff_halted.1 hc)

/-- The sample port has N data wires (40_sample_source.md R73). -/
theorem sampleIn_lt (s : State) : s.sampleIn < 2 ^ s.cfg.sampleBits := Nat.mod_lt _ (Nat.two_pow_pos _)

/-- The invariant holds after reset, in every build and environment (70_reset_and_hazards.md R133). -/
theorem inv_afterReset (b : Build) (l : List PortInputs) (n : Nat) : Inv (State.afterReset b l n) where
  reset_seen := rfl
  hist_length := zeroed_wf b
  samples := by simp
  op_defined := encode_ne_reserved .init
  fault_iff_halted := by simp [encode]
  fault_record := .inl ⟨rfl, rfl⟩
  delay_range := .inl rfl
  delay_written := by simp [encode, inFrameBody]
  remaining_full := fun _ => rfl
  remaining_le := Nat.le_refl _
  remaining_none := fun _ => rfl
  init_is_reset := fun _ => rfl

/-- The end of an edge keeps the invariant, which does not speak of the coming inputs. -/
theorem Inv.advance {s : State} (hs : Inv s) : Inv s.advance :=
  { hs with init_is_reset := fun h => congrArg State.advance (hs.init_is_reset h) }

/-! ## The invariant over each result of a step -/

/-- No step goes to INIT or to HALTED on completion (44_frame_scheduler.md R106, R107). -/
theorem successor_ne_init_halted {i n : Instr} (h : successor i = some n) :
    encode n ≠ 0x0#4 ∧ encode n ≠ 0xF#4 := by
  cases i <;> cases h <;> decide

/-- A successor's place in the frame: DERIVE_DELAY enters the frame's body; the steps around it have no delay running;
and the body is left for WAIT_TICK alone. -/
theorem successor_phase {i n : Instr} (h : successor i = some n) :
    (i = .deriveDelay ∧ n = .sampleShape) ∨
    ((i = .init ∨ i = .sampleSpeed ∨ i = .waitTick) ∧ (n = .sampleSpeed ∨ n = .deriveDelay)) ∨
    (inFrameBody (encode i) ∧ (inFrameBody (encode n) ∨ n = .waitTick)) := by
  cases i <;> cases h <;> simp [inFrameBody, encode]

theorem written_samples {i : Instr} {s : State} (hs : Inv s) :
    (s.written i).speedS < 2 ^ s.cfg.sampleBits ∧ (s.written i).shapeS < 2 ^ s.cfg.sampleBits ∧
    (s.written i).phaseS < 2 ^ s.cfg.sampleBits ∧ (s.written i).redS < 2 ^ s.cfg.sampleBits ∧
    (s.written i).greenS < 2 ^ s.cfg.sampleBits ∧ (s.written i).blueS < 2 ^ s.cfg.sampleBits := by
  have hin := sampleIn_lt s
  obtain ⟨hsp, hsh, hph, hr, hg, hb⟩ := hs.samples
  cases i <;> simp [State.written, *]

theorem written_hist_wf {i : Instr} {s : State} (h : Memory.wf s.cfg s.hist = true) :
    Memory.wf s.cfg (s.written i).hist = true := by
  by_cases hi : i = .pushFront
  · subst hi
    exact pushColor_wf _ _ _ h
  · rwa [s.written_hist_of_ne hi]

/-- A step that completes keeps what the invariant says of the delay: DERIVE_DELAY writes a delay in range to both
registers, and the others leave both and stay in or leave the frame's body as the invariant allows. -/
theorem Inv.delay_completed {i n : Instr} {s : State} (hs : Inv s) (hop : s.op = encode i)
    (hn : successor i = some n) (hc : completes i s) : DelayInv ((s.written i).goto n) := by
  obtain ⟨rfl, rfl⟩ | ⟨hi, hn'⟩ | ⟨hi, hn'⟩ := successor_phase hn
  · have hr : s.cfg.minDelay ≤ (BitVec.ofNat 32 (delayOf s.cfg s.speedS)).toNat ∧
        (BitVec.ofNat 32 (delayOf s.cfg s.speedS)).toNat ≤ s.cfg.maxDelay := by
      rw [delayWord_toNat]
      exact delayOf_range _ _
    exact ⟨.inr hr, fun _ => hr, fun _ => rfl, Nat.le_refl _, by simp [encode]⟩
  · have hd : (s.written i).delayMs = s.delayMs := by obtain rfl | rfl | rfl := hi <;> rfl
    have hr : (s.written i).remaining = 0 := by
      obtain rfl | rfl | rfl := hi
      · exact hs.remaining_none (.inl hop)
      · exact hs.remaining_none (.inr (.inl hop))
      · exact hc
    have hout : ¬ inFrameBody (encode n) ∧ encode n ≠ 0xD#4 := by
      obtain rfl | rfl := hn' <;> simp [inFrameBody, encode]
    exact ⟨by simpa [hd] using hs.delay_range, fun h => (h.elim hout.1 hout.2).elim, fun h => (hout.1 h).elim,
      by simp [hr], fun _ => hr⟩
  · have hne : i ≠ .deriveDelay := by rintro rfl; simp [inFrameBody, encode] at hi
    have hd := s.written_delayMs_of_ne hne
    have hr := s.written_remaining_of_ne hne
    rw [← hop] at hi
    have hout : ¬ (encode n = 0x0#4 ∨ encode n = 0x1#4 ∨ encode n = 0x2#4) := by
      obtain hn' | rfl := hn'
      · rintro (h | h | h) <;> simp [inFrameBody, h] at hn'
      · decide
    exact ⟨by simpa [hd] using hs.delay_range, fun _ => by simpa [hd] using hs.delay_written (.inl hi),
      fun _ => by simpa [hd, hr] using hs.remaining_full hi, by simpa [hd, hr] using hs.remaining_le,
      fun h => (hout h).elim⟩

/-- A step that completes keeps the invariant. -/
theorem Inv.completed {i n : Instr} {s : State} (hs : Inv s) (hop : s.op = encode i) (hn : successor i = some n)
    (hc : completes i s) : Inv ((s.written i).goto n) := by
  obtain ⟨hinit, hhalted⟩ := successor_ne_init_halted hn
  have hnf : s.faultCode = 0#2 := by
    refine hs.faultCode_eq_zero fun h => ?_
    rw [encode_injective (j := .halted) (hop.symm.trans h)] at hn
    cases hn
  have hd := hs.delay_completed hop hn hc
  exact
    { reset_seen := by simpa using hs.reset_seen
      hist_length := by simpa using written_hist_wf hs.hist_length
      samples := by simpa using written_samples hs
      op_defined := encode_ne_reserved n
      fault_iff_halted := by simp [hnf, hhalted]
      fault_record := by simpa using hs.fault_record
      delay_range := hd.range
      delay_written := hd.written
      remaining_full := hd.full
      remaining_le := hd.le
      remaining_none := hd.idle
      init_is_reset := fun h => (hinit h).elim }

/-- Fault entry keeps the invariant if it records one of the two faults with its cause (60_exceptions.md R118 to R121). -/
theorem Inv.enterFault {i : Instr} {s : State} {code : FaultBits} (hs : Inv s)
    (hrec : (code = 1#2 ∧ encode i ∈ [0x1#4, 0x3#4, 0x4#4, 0x5#4, 0x6#4, 0x7#4]) ∨
      (code = 2#2 ∧ encode i = 0xC#4 ∧ s.cfg.txFaultPolicy = .halt)) : Inv (s.enterFault code i) :=
  { hs with
    op_defined := encode_ne_reserved .halted
    fault_iff_halted := by obtain ⟨rfl, -⟩ | ⟨rfl, -⟩ := hrec <;> simp [encode]
    fault_record := .inr hrec
    delay_written := by simp [encode, inFrameBody]
    remaining_full := by simp [encode, inFrameBody]
    remaining_none := by simp [encode]
    init_is_reset := by simp [encode] }

/-- The code of a SAMPLE step is one of the six (40_sample_source.md R73). -/
theorem encode_mem_of_isSample {i : Instr} (h : i.isSample = true) :
    encode i ∈ [0x1#4, 0x3#4, 0x4#4, 0x5#4, 0x6#4, 0x7#4] := by
  cases i <;> cases h <;> decide

/-- A counted millisecond keeps the invariant: something remains to count down (44_frame_scheduler.md R111). -/
theorem Inv.countTick {s : State} (hs : Inv s) (hop : s.op = 0xD#4) (hr : s.remaining ≠ 0#32) : Inv s.countTick :=
  { hs with
    remaining_full := by simp [hop, inFrameBody]
    remaining_le := by
      have hle := hs.remaining_le
      simp only [State.countTick_remaining, State.countTick_delayMs]
      bv_omega
    remaining_none := by simp [hop]
    init_is_reset := by simp [hop] }

/-- The step that `op` names keeps the invariant. -/
theorem exec_keeps_inv {i : Instr} {s t : State} (hs : Inv s) (hop : s.op = encode i) (h : exec i s = .next t) :
    Inv t := by
  cases exec_result h with
  | completed n hn hc => exact hs.completed hop hn hc
  | sampleFault hi hf => exact hs.enterFault (.inl ⟨rfl, encode_mem_of_isSample hi⟩)
  | transmitFault hi he hp =>
    subst hi
    exact hs.enterFault (.inr ⟨rfl, rfl, hp⟩)
  | counted hi hr ht =>
    subst hi
    exact hs.countTick hop hr
  | held hw => exact hs

/-! ## Edges and runs -/

/-- Settles O47: a reset edge makes the reset state, and every other edge runs the step that `op` names. -/
theorem everyStepKeepsTheInvariant : Obligations.EveryStepKeepsTheInvariant := by
  intro s t hs h
  obtain ⟨-, rfl⟩ | ⟨-, -, -, i, u, hop, hu, rfl⟩ := step_cases h
  · exact (inv_afterReset s.cfg s.stim s.edge).advance
  · exact (exec_keeps_inv hs hop hu).advance

/-- A state with the invariant is never refused: none of the three refusals applies to it. -/
theorem Inv.step_answers_next {s : State} (hs : Inv s) : ∃ t, step s = .next t := by
  cases hr : s.now.rst with
  | true => exact ⟨_, step_reset hr⟩
  | false =>
    obtain ⟨i, hi⟩ := exists_encode hs.op_defined
    obtain ⟨u, hu⟩ := exec_answers_next i s
    exact ⟨_, step_next hr hs.reset_seen hs.faultCode_ne_unsupported hi hu⟩

/-- Runs of any length answer a next state with the invariant. -/
theorem Inv.run_answers_next (k : Nat) {s : State} (hs : Inv s) :
    ∃ t, Host.Core.run Sys2Proof.core k s = .next t ∧ Inv t := by
  induction k generalizing s with
  | zero => exact ⟨s, rfl, hs⟩
  | succ k ih =>
    obtain ⟨u, hu⟩ := hs.step_answers_next
    rw [run_succ k hu]
    exact ih (everyStepKeepsTheInvariant s u hs hu)

/-- Settles O49: progress and preservation over the edges of the run, from any state with the invariant; the reset state
has it. -/
theorem runsAreNeverRefused : Obligations.RunsAreNeverRefused := by
  refine ⟨fun k s hs => hs.run_answers_next k, fun k b l n => ?_⟩
  obtain ⟨t, ht, hinv⟩ := (inv_afterReset b l n).run_answers_next k
  exact ⟨t, ht, hinv.op_defined, hinv.faultCode_ne_unsupported⟩

/-! ## The sample request port -/

/-- The channel on the port is that of the step in progress. -/
theorem State.channel?_of_op {s : State} {i : Instr} (h : s.op = encode i) : s.channel? = i.channel := by
  simp [State.channel?, State.instr?, h]

theorem State.channel?_of_reserved {s : State} (h : s.op = 0xE#4) : s.channel? = none := by
  simp [State.channel?, State.instr?, h, decodeOp]

/-- A channel is selected exactly at the six SAMPLE codes (40_sample_source.md R73). -/
theorem channel_isSome_iff (i : Instr) :
    i.channel.isSome = true ↔ encode i ∈ [0x1#4, 0x3#4, 0x4#4, 0x5#4, 0x6#4, 0x7#4] := by
  cases i <;> decide

theorem smpReq_iff (s : State) : smpReq s = true ↔ s.op ∈ [0x1#4, 0x3#4, 0x4#4, 0x5#4, 0x6#4, 0x7#4] := by
  by_cases hE : s.op = 0xE#4
  · simp [smpReq, State.channel?_of_reserved hE, hE]
  · obtain ⟨i, hi⟩ := exists_encode hE
    rw [smpReq, State.channel?_of_op hi, hi]
    exact channel_isSome_iff i

theorem smpCh_of_channel {s : State} {c : Channel} (h : s.channel? = some c) : smpCh s = c.code := by
  simp [smpCh, h]

theorem smpCh_of_no_request {s : State} (h : s.channel? = none) : smpCh s = 0#3 := by
  simp [smpCh, h]

/-- The codes 6 and 7 are no channel's (30_encoding.md R64). -/
theorem channelCode_ne_reserved (c : Channel) : c.code ≠ 6#3 ∧ c.code ≠ 7#3 := by
  cases c <;> decide

theorem smpCh_ne_reserved (s : State) : smpCh s ≠ 6#3 ∧ smpCh s ≠ 7#3 := by
  cases h : s.channel? with
  | none => rw [smpCh_of_no_request h]; decide
  | some c => rw [smpCh_of_channel h]; exact channelCode_ne_reserved c

/-- Settles O50, from the channel of the step that `op` names. -/
theorem sampleRequestPort : Obligations.SampleRequestPort := by
  intro s
  have hch {i : Instr} {c : Channel} (hc : i.channel = some c) (h : s.op = encode i) : smpCh s = c.code :=
    smpCh_of_channel ((State.channel?_of_op h).trans hc)
  exact ⟨smpReq_iff s, hch (i := .sampleRed) rfl, hch (i := .sampleGreen) rfl, hch (i := .sampleBlue) rfl,
    hch (i := .sampleSpeed) rfl, hch (i := .sampleShape) rfl, hch (i := .samplePhase) rfl,
    fun h => smpCh_of_no_request (by simpa [smpReq] using h), smpCh_ne_reserved s⟩

end Sys2Proof.Machine

end

/-! # The layout of the strip port

The packed buffer is a number in base 2^24 whose digit i is entry i; it fits the port, so the port shows every digit. -/

section

namespace Sys2Proof.Machine

@[simp] theorem packStrip_nil : packStrip [] = 0 := rfl

@[simp] theorem packStrip_cons (c : Color) (rest : List Color) :
    packStrip (c :: rest) = c.toNat + 2 ^ 24 * packStrip rest := rfl

/-- A packed buffer takes 24 bits for each entry. -/
theorem packStrip_lt (hist : List Color) : packStrip hist < 2 ^ (24 * hist.length) := by
  induction hist with
  | nil => simp
  | cons c rest ih =>
    have hc : c.toNat < 2 ^ 24 := c.isLt
    rw [packStrip_cons, List.length_cons, Nat.mul_succ, Nat.pow_add]
    omega

/-- Entry i is digit i of the packed buffer: the entries below it make up the part that the division drops. -/
theorem packStrip_digit (hist : List Color) (i : Nat) (hi : i < hist.length) :
    packStrip hist / 2 ^ (24 * i) % 2 ^ 24 = hist[i].toNat := by
  induction hist generalizing i with
  | nil => simp at hi
  | cons c rest ih =>
    have hc : c.toNat < 2 ^ 24 := c.isLt
    cases i with
    | zero =>
      simp only [packStrip_cons, List.getElem_cons_zero, Nat.mul_zero, Nat.pow_zero, Nat.div_one]
      omega
    | succ j =>
      have hrest : packStrip (c :: rest) / 2 ^ 24 = packStrip rest := by
        rw [packStrip_cons]
        omega
      rw [Nat.mul_succ, Nat.add_comm, Nat.pow_add, ← Nat.div_div_eq_div_mul, hrest, List.getElem_cons_succ]
      exact ih j (by simpa using hi)

/-- The canonical form, read as the buffer's length. -/
theorem hist_length_of_wf {b : Build} {hist : List Color} (h : Memory.wf b hist = true) : hist.length = b.numLeds :=
  beq_iff_eq.mp h

/-- The port is as wide as the packed buffer, so nothing of it is cut off (20_memory.md R48). -/
theorem wrColors_toNat {s : State} (h : Memory.wf s.cfg s.hist = true) : (wrColors s).toNat = packStrip s.hist := by
  rw [wrColors, BitVec.toNat_ofNat, ← hist_length_of_wf h]
  exact Nat.mod_eq_of_lt (packStrip_lt s.hist)

/-- Settles O51: the field at bit 24·i is digit i of the packed buffer, which is entry i. -/
theorem stripPortLayout : Obligations.StripPortLayout := by
  intro s i hwf hi
  have hlen : i < s.hist.length := by rwa [hist_length_of_wf hwf]
  have hfield : s.hist[i] = (wrColors s).extractLsb' (24 * i) 24 := by
    apply BitVec.eq_of_toNat_eq
    rw [BitVec.extractLsb'_toNat, wrColors_toNat hwf, Nat.shiftRight_eq_div_pow, packStrip_digit s.hist i hlen]
  rw [histEntry, List.getElem?_eq_getElem hlen, hfield]

end Sys2Proof.Machine

end

/-! # Sequences of op codes

Every code but the reserved one is some step's code, and decoding undoes encoding: a sequence of codes decodes exactly if it
is the encoding of a sequence of steps. -/

section

namespace Sys2Proof

@[simp] theorem encodeAll_cons (i : Instr) (is : List Instr) : encodeAll (i :: is) = encode i :: encodeAll is := rfl

theorem decodeAll_encode_cons (i : Instr) (cs : List OpCode) :
    decodeAll (encode i :: cs) = (decodeAll cs).map (i :: ·) := by
  simp only [decodeAll, decodeOp_encode]
  cases decodeAll cs <;> rfl

@[simp] theorem decodeAll_encodeAll (is : List Instr) : decodeAll (encodeAll is) = .ok is := by
  induction is with
  | nil => rfl
  | cons i is ih =>
    rw [encodeAll_cons, decodeAll_encode_cons, ih]
    rfl

/-- The reserved code refuses the sequence it begins (30_encoding.md R62). -/
theorem decodeAll_reserved_cons (cs : List OpCode) : decodeAll (0xE#4 :: cs) = .error .reservedOp := rfl

/-- A sequence of codes decodes to its steps and to nothing else. -/
theorem encodeAll_of_decodeAll {cs : List OpCode} {is : List Instr} (h : decodeAll cs = .ok is) : encodeAll is = cs := by
  induction cs generalizing is with
  | nil =>
    cases h
    rfl
  | cons c cs ih =>
    by_cases hc : c = 0xE#4
    · rw [hc, decodeAll_reserved_cons] at h
      cases h
    · obtain ⟨i, rfl⟩ := exists_encode hc
      rw [decodeAll_encode_cons] at h
      cases hcs : decodeAll cs with
      | error e =>
        rw [hcs] at h
        cases h
      | ok js =>
        rw [hcs] at h
        cases h
        rw [encodeAll_cons, ih hcs]

theorem reserved_not_mem_encodeAll (is : List Instr) : 0xE#4 ∉ encodeAll is := by
  intro h
  obtain ⟨i, -, hi⟩ := List.mem_map.1 h
  exact encode_ne_reserved i hi

/-- Codes none of which is reserved are the encoding of some steps (30_encoding.md R61, R62). -/
theorem exists_encodeAll {cs : List OpCode} (h : 0xE#4 ∉ cs) : ∃ is, encodeAll is = cs := by
  induction cs with
  | nil => exact ⟨[], rfl⟩
  | cons c cs ih =>
    obtain ⟨hc, hcs⟩ := List.ne_and_not_mem_of_not_mem_cons h
    obtain ⟨i, rfl⟩ := exists_encode (Ne.symm hc)
    obtain ⟨is, rfl⟩ := ih hcs
    exact ⟨i :: is, rfl⟩

/-- Settles O2: the two round trips by induction on the sequence, and the domain from the steps that the codes stand for. -/
theorem stepSequenceEncodingRoundTrip : Obligations.StepSequenceEncodingRoundTrip := by
  refine ⟨decodeAll_encodeAll, fun cs is => encodeAll_of_decodeAll, fun cs => ⟨?_, fun h => ?_⟩⟩
  · rintro ⟨is, h⟩
    rw [← encodeAll_of_decodeAll h]
    exact reserved_not_mem_encodeAll is
  · obtain ⟨is, rfl⟩ := exists_encodeAll h
    exact ⟨is, decodeAll_encodeAll is⟩

end Sys2Proof

end

/-! # The text of a trace line

A line's text is its words with a blank before each but the first (30_encoding.md R69); cutting it at blanks gives the words
back, and each word is read back by its own reader. -/

section

namespace Sys2Proof.Machine

/-! ## Words -/

/-- Characters that form one word of a line: some, and neither a blank nor the `;` that begins a comment. -/
abbrev IsWord (w : List Char) : Prop := w ≠ [] ∧ ' ' ∉ w ∧ ';' ∉ w

/-- Words as they follow another word on a line, a blank before each. -/
def spaced (ws : List (List Char)) : List Char := ws.flatMap (' ' :: ·)

@[simp] theorem spaced_nil : spaced [] = [] := rfl

@[simp] theorem spaced_cons (w : List Char) (ws : List (List Char)) : spaced (w :: ws) = ' ' :: (w ++ spaced ws) := rfl

/-- Characters other than blanks are collected into the current word. -/
theorem tokensFrom_append {w : List Char} (hw : ' ' ∉ w) (cur rest : List Char) :
    tokensFrom cur (w ++ rest) = tokensFrom (w.reverse ++ cur) rest := by
  induction w generalizing cur with
  | nil => rfl
  | cons c w ih =>
    obtain ⟨hc, hw⟩ := List.ne_and_not_mem_of_not_mem_cons hw
    rw [List.cons_append, tokensFrom, if_neg (Ne.symm hc), ih hw]
    simp

/-- A word that has begun ends where the next blank or the line's end stands. -/
theorem tokensFrom_spaced {ws : List (List Char)} (hws : ∀ w ∈ ws, IsWord w) {cur : List Char} (hcur : cur ≠ []) :
    tokensFrom cur (spaced ws) = cur.reverse :: ws := by
  induction ws generalizing cur with
  | nil => simp [tokensFrom, hcur]
  | cons w ws ih =>
    obtain ⟨⟨hne, hblank, -⟩, hrest⟩ := List.forall_mem_cons.1 hws
    have hcut : tokensFrom cur (spaced (w :: ws)) = cur.reverse :: tokensFrom [] (w ++ spaced ws) := by
      simp [tokensFrom, hcur]
    rw [hcut, tokensFrom_append hblank, List.append_nil, ih hrest (by simpa using hne), List.reverse_reverse]

/-- Cutting a line at its blanks gives its words. -/
theorem tokens_spaced {w : List Char} {ws : List (List Char)} (hw : IsWord w) (hws : ∀ v ∈ ws, IsWord v) :
    tokens (w ++ spaced ws) = w :: ws := by
  obtain ⟨hne, hblank, -⟩ := hw
  rw [tokens, tokensFrom_append hblank, List.append_nil, tokensFrom_spaced hws (by simpa using hne),
    List.reverse_reverse]

theorem comment_not_mem_spaced {ws : List (List Char)} (hws : ∀ w ∈ ws, IsWord w) : ';' ∉ spaced ws := by
  induction ws with
  | nil => simp
  | cons w ws ih =>
    obtain ⟨⟨-, -, hw⟩, hrest⟩ := List.forall_mem_cons.1 hws
    simp [hw, ih hrest]

/-- Words hold no comment sign, so a line made of them has no comment to drop. -/
theorem takeWhile_spaced {w : List Char} {ws : List (List Char)} (hw : IsWord w) (hws : ∀ v ∈ ws, IsWord v) :
    (w ++ spaced ws).takeWhile (· ≠ ';') = w ++ spaced ws := by
  obtain ⟨-, -, hsign⟩ := hw
  have hline : ';' ∉ w ++ spaced ws := by simp [hsign, comment_not_mem_spaced hws]
  refine List.takeWhile_eq_self_iff.2 fun c hc => decide_eq_true ?_
  rintro rfl
  exact hline hc

/-! ## Numbers -/

theorem digitValue_of_isDigit {c : Char} (h : c.isDigit = true) : digitValue c = some (c.toNat - 48) := by
  have hrange : 48 ≤ c.toNat ∧ c.toNat ≤ 57 := by simpa [Char.isDigit, UInt32.le_iff_toNat_le] using h
  simp [digitValue, hrange]

/-- On digits, the reader of numbers is the library's. -/
theorem numberFrom_eq_ofDigitChars {cs : List Char} (h : ∀ c ∈ cs, c.isDigit = true) (acc : Nat) :
    numberFrom acc cs = some (Nat.ofDigitChars 10 cs acc) := by
  induction cs generalizing acc with
  | nil => rfl
  | cons c cs ih =>
    obtain ⟨hc, hcs⟩ := List.forall_mem_cons.1 h
    rw [numberFrom, digitValue_of_isDigit hc, Option.bind_some, ih hcs, Nat.ofDigitChars_cons]
    rfl

theorem isDigit_of_mem_decimal {v : Nat} {c : Char} (h : c ∈ decimal v) : c.isDigit = true :=
  Nat.isDigit_of_mem_toDigits (by decide) (by decide) h

/-- A number's decimal text reads back as the number. -/
@[simp] theorem number_decimal (v : Nat) : number (decimal v) = some v := by
  have hne : (decimal v).isEmpty = false := by simp [decimal, Nat.toDigits_ne_nil]
  rw [number, hne, if_neg Bool.false_ne_true, numberFrom_eq_ofDigitChars (fun _ => isDigit_of_mem_decimal), decimal,
    Nat.ofDigitChars_toDigits (by decide) (by decide)]

/-- A sample value in [0, FULL_SCALE] is accepted (30_encoding.md R72). -/
theorem sampleValue_decimal {p : Params} {v : Nat} (h : v ≤ p.fullScale) : sampleValue p (decimal v) = .ok v := by
  simp [sampleValue, h]

theorem IsWord_decimal (v : Nat) : IsWord (decimal v) := by
  refine ⟨Nat.toDigits_ne_nil, fun h => ?_, fun h => ?_⟩ <;> exact absurd (isDigit_of_mem_decimal h) (by decide)

/-! ## The words of a trace line -/

/-- The words of a response (30_encoding.md R69). -/
def Response.words : Response → List (List Char)
  | .plain => []
  | .ack v => ["<-".toList, decimal v]
  | .fault => ["!fault".toList]
  | .ok => ["ok".toList]
  | .err => ["!err".toList]
  | .tick => ["tick".toList]
  | .exit => ["exit".toList]

theorem Response.text_eq_spaced (r : Response) : r.text = spaced r.words := by
  cases r with
  | ack v => simp [Response.text, Response.words]
  | plain | fault | ok | err | tick | exit => rfl

theorem Response.IsWord_of_mem_words {r : Response} {w : List Char} (h : w ∈ r.words) : IsWord w := by
  cases r with
  | plain => cases h
  | ack v =>
    obtain rfl | rfl := List.mem_pair.1 h
    · decide
    · exact IsWord_decimal v
  | fault | ok | err | tick | exit =>
    cases List.mem_singleton.1 h
    decide

/-- The word of a step's code (30_encoding.md R69). -/
def codeWord (i : Instr) : List Char := ['0', 'x', hexDigit (encode i)]

theorem IsWord_codeWord (i : Instr) : IsWord (codeWord i) := by
  cases i <;> decide

theorem IsWord_mnemonic (i : Instr) : IsWord i.mnemonic.toList := by
  cases i <;> decide

theorem TraceLine.text_eq_spaced (l : TraceLine) :
    l.text = codeWord l.instr ++ spaced (l.instr.mnemonic.toList :: l.response.words) := by
  simp [TraceLine.text, codeWord, Response.text_eq_spaced]

theorem TraceLine.IsWord_of_mem {l : TraceLine} {w : List Char}
    (h : w ∈ l.instr.mnemonic.toList :: l.response.words) : IsWord w := by
  obtain rfl | h := List.mem_cons.1 h
  · exact IsWord_mnemonic _
  · exact Response.IsWord_of_mem_words h

/-! ## Reading the words -/

/-- A step's code and mnemonic name the step (30_encoding.md R61). -/
theorem stepOf_codeWord (i : Instr) : stepOf (codeWord i) i.mnemonic.toList = .ok i := by
  cases i <;> decide

/-- The words of a response that the step writes read back as the response (30_encoding.md R69, R72). -/
theorem responseFrom_words {p : Params} {l : TraceLine} (h : l.wellFormed p) :
    responseFrom p l.instr l.response.words = .ok l.response := by
  obtain ⟨i, r⟩ := l
  cases r with
  | plain => cases i <;> simp [TraceLine.wellFormed] at h <;> rfl
  | ack v =>
    obtain ⟨hi, hv⟩ := h
    cases i <;> cases hi <;> simp [responseFrom, Response.words, sampleValue_decimal hv, Except.map, Instr.isSample]
  | fault =>
    have hi : i.isSample = true := h
    cases i <;> cases hi <;> rfl
  | ok | err =>
    cases (h : i = .writeStrip)
    rfl
  | tick | exit =>
    cases (h : i = .waitTick)
    rfl

/-- Settles O3: the line's text is cut into its words, and the words are read back one after another. -/
theorem traceLineTextRoundTrip : Obligations.TraceLineTextRoundTrip := by
  intro p l hl
  have hcode := IsWord_codeWord l.instr
  have hwords : ∀ w ∈ l.instr.mnemonic.toList :: l.response.words, IsWord w := fun _ => TraceLine.IsWord_of_mem
  rw [parseTraceLine, l.text_eq_spaced, takeWhile_spaced hcode hwords, tokens_spaced hcode hwords]
  simp only [stepOf_codeWord, responseFrom_words hl]
  rfl

end Sys2Proof.Machine

end

/-! # Single op codes, as words and as bytes

The code of a step is read back from the number it stands for, and no number above its four bits is read. -/

section

namespace Sys2Proof

theorem decodeWord_encode (i : Instr) : decodeWord (encode i).toNat = .ok i := by
  rw [decodeWord, if_pos (encode i).isLt, BitVec.ofNat_toNat, BitVec.setWidth_eq, decodeOp_encode]

theorem decodeWord_of_ge {w : Nat} (h : 16 ≤ w) : decodeWord w = .error .notFourBits :=
  if_neg (Nat.not_lt.2 h)

theorem lt_of_decodeWord {w : Nat} {i : Instr} (h : decodeWord w = .ok i) : w < 16 := by
  by_contra hw
  rw [decodeWord_of_ge (Nat.not_lt.1 hw)] at h
  cases h

/-- Bytes of zeros after the first byte are no part of the code (log 14). -/
theorem decodeBytes_zeros (b : BitVec 8) (n : Nat) : decodeBytes (b :: List.replicate n 0#8) = decodeWord b.toNat :=
  if_pos (by simp)

theorem decodeWord_of_decodeBytes {b : BitVec 8} {rest : List (BitVec 8)} {i : Instr}
    (h : decodeBytes (b :: rest) = .ok i) : decodeWord b.toNat = .ok i := by
  rw [decodeBytes] at h
  split at h
  · exact h
  · cases h

/-- Settles O1: each code of R61 is the encoding of its step. -/
theorem opCodesDecodeToTheirSteps : Obligations.OpCodesDecodeToTheirSteps :=
  ⟨decodeOp_encode .init, decodeOp_encode .sampleSpeed, decodeOp_encode .deriveDelay, decodeOp_encode .sampleShape,
    decodeOp_encode .samplePhase, decodeOp_encode .sampleRed, decodeOp_encode .sampleGreen, decodeOp_encode .sampleBlue,
    decodeOp_encode .synthRed, decodeOp_encode .synthGreen, decodeOp_encode .synthBlue, decodeOp_encode .pushFront,
    decodeOp_encode .writeStrip, decodeOp_encode .waitTick, decodeOp_encode .halted, rfl, rfl⟩

/-- Settles O4: the table's words and the bytes are both read by `decodeWord`, which reads four bits. -/
theorem onlyFourBitsDecode : Obligations.OnlyFourBitsDecode := by
  refine ⟨fun i _ => ?_, fun _ w hw => ?_, fun i n => ?_, fun c rest i h => ?_⟩
  · rw [decodeTableWord, decodeWord_encode]
  · rw [decodeTableWord, decodeWord_of_ge hw]
  · have hbyte : (BitVec.ofNat 8 (encode i).toNat).toNat = (encode i).toNat := by
      have hlt := (encode i).isLt
      rw [BitVec.toNat_ofNat, Nat.mod_eq_of_lt (by omega)]
    rw [decodeBytes_zeros, hbyte, decodeWord_encode]
  · exact lt_of_decodeWord (decodeWord_of_decodeBytes h)

end Sys2Proof

end

/-! # The step an edge runs

`Runs i s`: the coming edge of `s` runs step `i`. What the edge then answers and which line it writes follows from the step
alone; and the step changes `op` or `remaining` unless it waits. -/

section

namespace Sys2Proof.Machine

/-! ## Edges that run a step -/

/-- The coming edge runs step `i`: it is no reset edge, and nothing has the state refused (44_frame_scheduler.md R106). -/
structure Runs (i : Instr) (s : State) : Prop where
  no_reset : s.now.rst = false
  reset_seen : s.resetSeen = true
  supported : s.faultCode ≠ FaultCode.unsupported
  op : s.op = encode i

theorem Runs.step_next {i : Instr} {s u : State} (h : Runs i s) (hu : exec i s = .next u) : step s = .next u.advance :=
  Machine.step_next h.no_reset h.reset_seen h.supported h.op hu

/-- An edge without reset that answers a next state runs a step. -/
theorem exists_runs {s t : State} (hr : s.now.rst = false) (h : step s = .next t) :
    ∃ i u, Runs i s ∧ exec i s = .next u ∧ t = u.advance := by
  obtain ⟨hreset, -⟩ | ⟨-, hseen, hf, i, u, hop, hu, rfl⟩ := step_cases h
  · rw [hr] at hreset
    cases hreset
  · exact ⟨i, u, ⟨hr, hseen, hf, hop⟩, hu, rfl⟩

theorem State.instr?_of_op {s : State} {i : Instr} (h : s.op = encode i) : s.instr? = some i := by
  simp [State.instr?, h]

/-- The line of an edge that runs a step carries the step's response (30_encoding.md R69). -/
theorem Runs.traceLine_eq {i : Instr} {s : State} (h : Runs i s) :
    traceLine s = (responseOf i s).map (fun r => ⟨i, r⟩) := by
  simp [traceLine, h.no_reset, h.reset_seen, h.supported, State.instr?_of_op h.op]

/-! ## Steps that wait -/

theorem sampleResponse_eq_none_iff (s : State) :
    sampleResponse s = none ↔ s.now.smpFault = false ∧ s.now.smpAck = false := by
  cases hf : s.now.smpFault <;> cases ha : s.now.smpAck <;> simp [sampleResponse, hf, ha]

theorem stripResponse_eq_none_iff (s : State) : stripResponse s = none ↔ s.now.wrErr = false ∧ s.now.wrDone = false := by
  cases he : s.now.wrErr <;> cases hd : s.now.wrDone <;> simp [stripResponse, he, hd]

theorem tickResponse_eq_none_iff (s : State) : tickResponse s = none ↔ s.remaining ≠ 0#32 ∧ s.now.msTick = false := by
  by_cases hr : s.remaining = 0#32 <;> cases ht : s.now.msTick <;> simp [tickResponse, hr, ht]

/-- A step writes no line exactly where it waits (30_encoding.md R69). -/
theorem responseOf_eq_none_iff (i : Instr) (s : State) : responseOf i s = none ↔ waits i s := by
  cases i with
  | sampleSpeed | sampleShape | samplePhase | sampleRed | sampleGreen | sampleBlue => exact sampleResponse_eq_none_iff s
  | writeStrip => exact stripResponse_eq_none_iff s
  | waitTick => exact tickResponse_eq_none_iff s
  | halted => exact iff_of_true rfl trivial
  | init | deriveDelay | synthRed | synthGreen | synthBlue | pushFront => simp [responseOf, waits]

/-- A step that completes does not wait. -/
theorem not_waits_of_completes {i : Instr} {s : State} (hc : completes i s) : ¬ waits i s := by
  cases i with
  | sampleSpeed | sampleShape | samplePhase | sampleRed | sampleGreen | sampleBlue =>
    rintro ⟨-, ha⟩
    simp [completes, ha] at hc
  | writeStrip =>
    rintro ⟨he, hd⟩
    simp [completes, he, hd] at hc
  | waitTick => exact fun hw => hw.1 hc
  | halted => exact hc.elim
  | init | deriveDelay | synthRed | synthGreen | synthBlue | pushFront => exact id

theorem not_waits_of_smpFault {i : Instr} {s : State} (hi : i.isSample = true) (hf : s.now.smpFault = true) :
    ¬ waits i s := by
  cases i <;> cases hi <;> simp [waits, hf]

/-- No step is its own successor (44_frame_scheduler.md R106). -/
theorem successor_ne_self {i n : Instr} (h : successor i = some n) : n ≠ i := by
  rintro rfl
  cases n <;> cases h

/-- A step that waits answers its own state; every other step changes `op`, or `remaining` where WAIT_TICK counts. -/
theorem exec_waits_or_changes {i : Instr} {s u : State} (hop : s.op = encode i) (hu : exec i s = .next u) :
    (waits i s ∧ u = s) ∨ (¬ waits i s ∧ (u.op ≠ s.op ∨ u.remaining ≠ s.remaining)) := by
  cases exec_result hu with
  | completed n hn hc =>
    refine .inr ⟨not_waits_of_completes hc, .inl fun h => successor_ne_self hn (encode_injective ?_)⟩
    exact h.trans hop
  | sampleFault hi hf =>
    refine .inr ⟨not_waits_of_smpFault hi hf, .inl fun h => ?_⟩
    rw [← encode_injective (i := .halted) (h.trans hop)] at hi
    cases hi
  | transmitFault hi he hp =>
    subst hi
    refine .inr ⟨by simp [waits, he], .inl fun h => ?_⟩
    cases encode_injective (i := .halted) (h.trans hop)
  | counted hi hr ht =>
    subst hi
    refine .inr ⟨by simp [waits, ht], .inr ?_⟩
    rw [State.countTick_remaining]
    bv_omega
  | held hw => exact .inl ⟨hw, rfl⟩

/-- The end of an edge is the environment moved on by one edge. -/
theorem State.advance_eq_after (s : State) : s.advance = s.after 1 := by
  simp [State.advance, State.after]

/-- Settles O52: a line is missing exactly where the step waits, and a step that does not wait changes `op` or
`remaining`. -/
theorem traceLinePerStateChange : Obligations.TraceLinePerStateChange := by
  intro s t hr h
  obtain ⟨i, u, hi, hu, rfl⟩ := exists_runs hr h
  rw [hi.traceLine_eq, Option.map_eq_none_iff, responseOf_eq_none_iff]
  obtain ⟨hw, rfl⟩ | ⟨hw, hchange⟩ := exec_waits_or_changes hi.op hu
  · exact iff_of_true hw u.advance_eq_after
  · refine iff_of_false hw fun heq => ?_
    obtain hop | hrem := hchange
    · exact hop (by simpa using congrArg State.op heq)
    · exact hrem (by simpa using congrArg State.remaining heq)

/-! ## The reserved code -/

/-- No step goes to the reserved code (30_encoding.md R62). -/
theorem exec_op_defined {i : Instr} {s u : State} (hop : s.op = encode i) (hu : exec i s = .next u) : u.op ≠ 0xE#4 := by
  cases exec_result hu with
  | completed n hn hc => exact encode_ne_reserved n
  | sampleFault hi hf => exact encode_ne_reserved .halted
  | transmitFault hi he hp => exact encode_ne_reserved .halted
  | counted hi hr ht =>
    rw [State.countTick_op, hop]
    exact encode_ne_reserved i
  | held hw =>
    rw [hop]
    exact encode_ne_reserved i

/-- Settles O11: an edge without reset that answers runs the step of `op`, which the reserved code has not; and no step goes
there. -/
theorem reservedOpRefusedAndNeverReached : Obligations.ReservedOpRefusedAndNeverReached := by
  refine ⟨fun s hop hr => ?_, fun s t h => ?_⟩
  · cases hs : step s with
    | next t =>
      obtain ⟨i, -, hi, -⟩ := exists_runs hr hs
      exact absurd (hi.op.symm.trans hop) (encode_ne_reserved i)
    | fault r => cases r
    | refused r => exact ⟨r, rfl⟩
  · obtain ⟨-, rfl⟩ | ⟨-, -, -, i, u, hop, hu, rfl⟩ := step_cases h
    · exact encode_ne_reserved .init
    · rw [State.advance_op]
      exact exec_op_defined hop hu

/-! ## A placed step -/

/-- Where `withFetchWord` places the code of a step, the coming edge runs that step (log 11). -/
theorem runs_withFetchWord {s : State} (hf : s.faultCode ≠ FaultCode.unsupported) (i : Instr) (nbits : Nat) :
    Runs i (s.withFetchWord nbits (encode i).toNat) where
  no_reset := by
    cases hs : s.stim <;> simp [State.now, State.withFetchWord, State.placeStep, hs, answeringEdge]
  reset_seen := rfl
  supported := hf
  op := by simp [State.withFetchWord, State.placeStep]

/-- Settles O6: the edge runs the placed step. -/
theorem placedWordRunsNext : Obligations.PlacedWordRunsNext :=
  fun _ _ i nbits hf h => (runs_withFetchWord hf i nbits).step_next h

end Sys2Proof.Machine

end

/-! # Stretches of a run, with the steps whose lines they write

`Traced s k is t`: over k edges the block goes from s to t, and the lines written on the way are those of the steps `is`.
Stretches are put together by `Traced.trans`; a stretch of one edge is an edge that runs a step. -/

section

namespace Sys2Proof.Machine

/-! ## Putting stretches together -/

/-- Over the next k edges the block goes from s to t, and the lines they write are those of the steps `is`, in order. -/
structure Traced (s : State) (k : Nat) (is : List Instr) (t : State) : Prop where
  run : Host.Core.run Sys2Proof.core k s = .next t
  steps : (traceRun k s).map TraceLine.instr = is

theorem traceRun_succ {s t : State} (k : Nat) (h : step s = .next t) :
    traceRun (k + 1) s = (traceLine s).toList ++ traceRun k t := by
  simp [traceRun, h]

/-- The trace of a run in two parts. -/
theorem traceRun_add {s t : State} (j k : Nat) (h : Host.Core.run Sys2Proof.core j s = .next t) :
    traceRun (j + k) s = traceRun j s ++ traceRun k t := by
  induction j generalizing s with
  | zero =>
    cases (h : (Host.Outcome.next s : Result) = .next t)
    simp [traceRun]
  | succ j ih =>
    rw [Nat.succ_add]
    cases hs : step s with
    | next u =>
      rw [run_succ j hs] at h
      rw [traceRun_succ _ hs, traceRun_succ _ hs, ih h, List.append_assoc]
    | fault r => cases r
    | refused r =>
      have hs' : Sys2Proof.core.step s = .refused r := hs
      simp [Host.Core.run, hs'] at h

theorem Traced.refl (s : State) : Traced s 0 [] s := ⟨rfl, rfl⟩

theorem Traced.trans {s t u : State} {j k : Nat} {is js : List Instr} (h : Traced s j is t) (h' : Traced t k js u) :
    Traced s (j + k) (is ++ js) u where
  run := by rw [run_add j k h.run, h'.run]
  steps := by rw [traceRun_add j k h.run, List.map_append, h.steps, h'.steps]

/-! ## One edge -/

/-- An edge on which the step waits writes no line. -/
theorem Runs.traced_of_waits {i : Instr} {s : State} (h : Runs i s) (hw : waits i s) : Traced s 1 [] (s.after 1) := by
  obtain ⟨u, hu⟩ := exec_answers_next i s
  obtain ⟨-, rfl⟩ | ⟨hw', -⟩ := exec_waits_or_changes h.op hu
  · have hnone : traceLine u = none := by
      rw [h.traceLine_eq, (responseOf_eq_none_iff i u).2 hw]
      rfl
    have hstep := h.step_next hu
    rw [State.advance_eq_after] at hstep
    exact ⟨run_succ 0 hstep, by rw [traceRun_succ 0 hstep, hnone]; rfl⟩
  · exact absurd hw hw'

/-- Any other edge that runs a step writes its line (30_encoding.md R69). -/
theorem Runs.traced_of_not_waits {i : Instr} {s u : State} (h : Runs i s) (hu : exec i s = .next u) (hw : ¬ waits i s) :
    Traced s 1 [i] u.advance := by
  obtain ⟨r, hr⟩ := Option.ne_none_iff_exists'.1 (mt (responseOf_eq_none_iff i s).1 hw)
  have hline : traceLine s = some ⟨i, r⟩ := by
    rw [h.traceLine_eq, hr]
    rfl
  have hstep := h.step_next hu
  exact ⟨run_succ 0 hstep, by rw [traceRun_succ 0 hstep, hline]; rfl⟩

theorem not_completes_of_smpFault {i : Instr} {s : State} (hi : i.isSample = true) (hf : s.now.smpFault = true) :
    ¬ completes i s := by
  cases i <;> cases hi <;> simp [completes, hf]

/-- A step whose condition of completion holds writes its registers and goes to its successor. -/
theorem exec_of_completes {i n : Instr} {s : State} (hn : successor i = some n) (hc : completes i s) :
    exec i s = .next ((s.written i).goto n) := by
  obtain ⟨u, hu⟩ := exec_answers_next i s
  rw [hu]
  cases exec_result hu with
  | completed m hm _ => rw [Option.some.inj (hm.symm.trans hn)]
  | sampleFault hi hf => exact absurd hc (not_completes_of_smpFault hi hf)
  | transmitFault hi he hp =>
    subst hi
    simp [completes, he, hp] at hc
  | counted hi hr _ =>
    subst hi
    exact absurd hc hr
  | held hw => exact absurd hw (not_waits_of_completes hc)

theorem exec_waitTick_of_tick {s : State} (hr : s.remaining ≠ 0#32) (ht : s.now.msTick = true) :
    exec .waitTick s = .next s.countTick := by
  simp [exec, execWaitTick, hr, ht]

/-! ## States that edges without reset are not refused in -/

/-- Nothing but a reserved `op` can have an edge without reset refused (70_reset_and_hazards.md R137, 60_exceptions.md
R122). -/
structure Live (s : State) : Prop where
  reset_seen : s.resetSeen = true
  supported : s.faultCode ≠ FaultCode.unsupported

theorem Inv.live {s : State} (hs : Inv s) : Live s := ⟨hs.reset_seen, hs.faultCode_ne_unsupported⟩

theorem Live.after {s : State} (hs : Live s) (k : Nat) : Live (s.after k) := ⟨hs.reset_seen, hs.supported⟩

theorem Live.runs {i : Instr} {s : State} {e : PortInputs} {rest : List PortInputs} (hs : Live s) (hop : s.op = encode i)
    (hstim : s.stim = e :: rest) (hr : e.rst = false) : Runs i s :=
  ⟨by rwa [now_cons hstim], hs.reset_seen, hs.supported, hop⟩

theorem State.after_after (s : State) (j k : Nat) : (s.after j).after k = s.after (j + k) := by
  simp [State.after, Nat.add_assoc]

/-! ## A visit to a step -/

/-- The edges on which step `i`, whose answers come from the input ports, holds any number of times and then completes
(40_sample_source.md R73, 43_strip_writer.md R101). -/
def Visit (i : Instr) (l : List PortInputs) : Prop :=
  ∃ holds e, l = holds ++ [e] ∧ (∀ h ∈ holds, h.rst = false ∧ ∀ s : State, s.now = h → waits i s) ∧
    e.rst = false ∧ ∀ s : State, s.now = e → completes i s

theorem Conversion.visit {b : Build} {v : Nat} {l : List PortInputs} (h : Conversion b v l) {i : Instr}
    (hi : i.isSample = true) : Visit i l := by
  obtain ⟨holds, e, rfl, hholds, hr, ha, hf, -⟩ := h
  refine ⟨holds, e, rfl, fun h hh => ?_, hr, ?_⟩
  · obtain ⟨hrst, hack, hfault⟩ := hholds h hh
    exact ⟨hrst, fun s hs => waits_of_isSample hi (by rw [hs, hfault]) (by rw [hs, hack])⟩
  · exact fun s hs => completes_of_isSample hi (by rw [hs, ha]) (by rw [hs, hf])

theorem Transmission.visit {l : List PortInputs} (h : Transmission l) : Visit .writeStrip l := by
  obtain ⟨holds, e, rfl, hholds, hr, hd, he⟩ := h
  refine ⟨holds, e, rfl, fun h hh => ?_, hr, fun s hs => .inl ?_⟩
  · obtain ⟨hrst, hdone, herr⟩ := hholds h hh
    exact ⟨hrst, fun s hs => ⟨by rw [hs, herr], by rw [hs, hdone]⟩⟩
  · rw [hs]
    exact ⟨hd, he⟩

/-- A step that reads no input completes on every edge (44_frame_scheduler.md R106). -/
theorem visit_unread {i : Instr} (hi : ∀ s, completes i s) {e : PortInputs} (hr : e.rst = false) : Visit i [e] :=
  ⟨[], e, rfl, by simp, hr, fun s _ => hi s⟩

/-- The state after step `i` has held k edges and completed on the next, with successor n. -/
def State.passed (s : State) (i n : Instr) (k : Nat) : State := (((s.after k).written i).goto n).advance

section Passed

variable (s : State) (i n : Instr) (k : Nat)

@[simp] theorem State.passed_op : (s.passed i n k).op = encode n := rfl
@[simp] theorem State.passed_cfg : (s.passed i n k).cfg = s.cfg := by simp [State.passed]
@[simp] theorem State.passed_stim : (s.passed i n k).stim = s.stim.drop (k + 1) := by simp [State.passed]
@[simp] theorem State.passed_resetSeen : (s.passed i n k).resetSeen = s.resetSeen := by simp [State.passed]
@[simp] theorem State.passed_faultCode : (s.passed i n k).faultCode = s.faultCode := by simp [State.passed]

theorem State.passed_remaining_of_ne (h : i ≠ .deriveDelay) : (s.passed i n k).remaining = s.remaining := by
  simp [State.passed, State.written_remaining_of_ne _ h]

end Passed

theorem Live.passed {s : State} (hs : Live s) (i n : Instr) (k : Nat) : Live (s.passed i n k) :=
  ⟨by simpa using hs.reset_seen, by simpa using hs.supported⟩

/-- Edges on which a step waits write no line and change nothing of the block. -/
theorem Live.traced_holds {i : Instr} {s : State} {holds rest : List PortInputs} (hs : Live s) (hop : s.op = encode i)
    (hstim : s.stim = holds ++ rest) (hholds : ∀ h ∈ holds, h.rst = false ∧ ∀ s : State, s.now = h → waits i s) :
    Traced s holds.length [] (s.after holds.length) := by
  induction holds generalizing s with
  | nil => exact Traced.refl s
  | cons h holds ih =>
    obtain ⟨⟨hr, hw⟩, hrest⟩ := List.forall_mem_cons.1 hholds
    have hfirst := (hs.runs hop hstim hr).traced_of_waits (hw s (now_cons hstim))
    have hothers := ih (hs.after 1) hop (by simp [hstim]) hrest
    rw [State.after_after] at hothers
    simpa [Nat.add_comm] using hfirst.trans hothers

/-- A visit writes one line, and leaves the step's registers written. -/
theorem Visit.traced {i n : Instr} {s : State} {l rest : List PortInputs} (hl : Visit i l) (hn : successor i = some n)
    (hs : Live s) (hop : s.op = encode i) (hstim : s.stim = l ++ rest) :
    ∃ k, k + 1 = l.length ∧ Traced s l.length [i] (s.passed i n k) := by
  obtain ⟨holds, e, rfl, hholds, hr, hc⟩ := hl
  have hlast : (s.after holds.length).stim = e :: rest := by simp [hstim]
  have hcomp := hc _ (now_cons hlast)
  have hwait := hs.traced_holds hop (rest := e :: rest) (by simp [hstim]) hholds
  have hedge := ((hs.after holds.length).runs hop hlast hr).traced_of_not_waits (exec_of_completes hn hcomp)
    (not_waits_of_completes hcomp)
  exact ⟨holds.length, by simp, by simpa [State.passed] using hwait.trans hedge⟩

/-- The sample that a conversion leaves on the port on its completing edge (40_sample_source.md R73). -/
theorem Conversion.sampleIn {s : State} {v k : Nat} {l rest : List PortInputs} (hl : Conversion s.cfg v l)
    (hstim : s.stim = l ++ rest) (hk : k + 1 = l.length) : (s.after k).sampleIn = v := by
  obtain ⟨holds, e, rfl, -, -, -, -, hv⟩ := hl
  obtain rfl : k = holds.length := by simpa using hk
  have hlast : (s.after holds.length).stim = e :: rest := by simp [hstim]
  rw [State.sampleIn, now_cons hlast]
  exact hv

/-! ## A walk through several steps -/

/-- The edges of visits to the steps `is` one after another, from step `i` to the arrival at step `n`
(44_frame_scheduler.md R106). -/
inductive Walk : Instr → List Instr → Instr → List PortInputs → Prop where
  | arrived (i : Instr) : Walk i [] i []
  | visit {i j n : Instr} {is : List Instr} {l l' : List PortInputs} (hn : successor i = some j) (hv : Visit i l)
      (hw : Walk j is n l') : Walk i (i :: is) n (l ++ l')

theorem Walk.unread {i j n : Instr} {is : List Instr} {e : PortInputs} {l : List PortInputs} (hn : successor i = some j)
    (hi : ∀ s, completes i s) (hr : e.rst = false) (hw : Walk j is n l) : Walk i (i :: is) n (e :: l) :=
  .visit hn (visit_unread hi hr) hw

/-- A walk writes one line for each step it visits, and `remaining` stays as it was unless DERIVE_DELAY is among them. -/
theorem Walk.traced {i n : Instr} {is : List Instr} {l : List PortInputs} (hw : Walk i is n l) {s : State}
    {rest : List PortInputs} (hs : Live s) (hop : s.op = encode i) (hstim : s.stim = l ++ rest)
    (hd : .deriveDelay ∉ is) :
    ∃ t, Traced s l.length is t ∧ Live t ∧ t.op = encode n ∧ t.stim = rest ∧ t.remaining = s.remaining := by
  induction hw generalizing s with
  | arrived i => exact ⟨s, Traced.refl s, hs, hop, hstim, rfl⟩
  | @visit i j n is l l' hn hv hw ih =>
    obtain ⟨hne, hd⟩ := List.ne_and_not_mem_of_not_mem_cons hd
    obtain ⟨k, hk, hfirst⟩ := hv.traced hn hs hop (rest := l' ++ rest) (by simp [hstim])
    obtain ⟨t, hothers, ht, htop, htstim, htrem⟩ := ih (hs.passed i j k) rfl (by simp [hstim, hk]) hd
    refine ⟨t, by simpa using hfirst.trans hothers, ht, htop, htstim, ?_⟩
    rw [htrem, State.passed_remaining_of_ne _ _ _ _ hne.symm]

/-! ## Counting in WAIT_TICK -/

theorem Counting.of_cons_tick {d : Nat} {e : PortInputs} {l : List PortInputs} (h : Counting d (e :: l))
    (he : e.msTick = true) : ∃ d', d = d' + 1 ∧ Counting d' l := by
  obtain ⟨hr, hd, hlast⟩ := h
  refine ⟨_, by simpa [he] using hd.symm, fun x hx => hr x (List.mem_cons_of_mem e hx), rfl, fun x hx => hlast x ?_⟩
  simp [List.getLast?_cons, hx]

theorem Counting.of_cons_hold {d : Nat} {e : PortInputs} {l : List PortInputs} (h : Counting d (e :: l))
    (he : e.msTick = false) : 0 < d ∧ Counting d l := by
  obtain ⟨hr, hd, hlast⟩ := h
  have hd' : (l.filter (fun x => x.msTick)).length = d := by simpa [he] using hd
  cases hl : l.getLast? with
  | none =>
    have hte := hlast e (by simp [List.getLast?_cons, hl])
    rw [he] at hte
    cases hte
  | some x =>
    have hx := hlast x (by simp [List.getLast?_cons, hl])
    have hmem : x ∈ l.filter (fun x => x.msTick) := List.mem_filter.2 ⟨List.mem_of_getLast? hl, hx⟩
    refine ⟨hd' ▸ List.length_pos_of_mem hmem, fun y hy => hr y (List.mem_cons_of_mem e hy), hd', fun y hy => ?_⟩
    rw [hl] at hy
    cases hy
    exact hx

/-- The state after k edges of WAIT_TICK on which d milliseconds were counted (44_frame_scheduler.md R111). -/
def State.ticked (s : State) (d k : Nat) : State :=
  { s.after k with time := s.time + BitVec.ofNat 32 d, remaining := s.remaining - BitVec.ofNat 32 d }

theorem State.ticked_zero (s : State) : s.ticked 0 0 = s := by simp [State.ticked, State.after]

theorem State.after_ticked (s : State) (d k : Nat) : (s.after 1).ticked d k = s.ticked d (k + 1) := by
  simp [State.ticked, State.after, Nat.add_comm, Nat.add_left_comm]

theorem State.countTick_ticked (s : State) (d k : Nat) :
    s.countTick.advance.ticked d k = s.ticked (d + 1) (k + 1) := by
  have htime : s.time + 1 + BitVec.ofNat 32 d = s.time + BitVec.ofNat 32 (d + 1) := by bv_omega
  have hrem : s.remaining - 1 - BitVec.ofNat 32 d = s.remaining - BitVec.ofNat 32 (d + 1) := by bv_omega
  simp only [State.ticked, State.after, State.countTick, State.advance, htime, hrem, List.drop_tail, Nat.add_assoc,
    Nat.add_comm 1 k]

/-- While something remains, the edges of WAIT_TICK write one line for each millisecond they count. -/
theorem Counting.traced {d : Nat} {l rest : List PortInputs} (hl : Counting d l) {s : State} (hs : Live s)
    (hop : s.op = encode .waitTick) (hstim : s.stim = l ++ rest) (hd : d ≤ s.remaining.toNat) :
    Traced s l.length (List.replicate d .waitTick) (s.ticked d l.length) := by
  induction l generalizing s d with
  | nil =>
    obtain ⟨-, rfl, -⟩ := hl
    rw [List.length_nil]
    simpa [State.ticked_zero] using Traced.refl s
  | cons e l ih =>
    have hrun := hs.runs hop hstim (hl.1 e List.mem_cons_self)
    have hnow : s.now = e := now_cons hstim
    cases he : e.msTick with
    | true =>
      obtain ⟨d, rfl, hl'⟩ := hl.of_cons_tick he
      have hrem : s.remaining ≠ 0#32 := by
        rintro h
        simp [h] at hd
      have htick : s.now.msTick = true := by rw [hnow, he]
      have hfirst := hrun.traced_of_not_waits (exec_waitTick_of_tick hrem htick) (by simp [waits, htick])
      have hleft : d ≤ s.countTick.remaining.toNat := by
        rw [State.countTick_remaining]
        bv_omega
      have hothers := ih hl' (s := s.countTick.advance) ⟨hs.reset_seen, hs.supported⟩ hop (by simp [hstim]) hleft
      rw [State.countTick_ticked] at hothers
      simpa [Nat.add_comm, List.replicate_succ] using hfirst.trans hothers
    | false =>
      obtain ⟨hpos, hl⟩ := hl.of_cons_hold he
      have hrem : s.remaining ≠ 0#32 := by
        rintro h
        simp [h] at hd
        omega
      have hfirst := hrun.traced_of_waits ⟨hrem, by rw [hnow, he]⟩
      have hothers := ih hl (hs.after 1) hop (by simp [hstim]) hd
      rw [State.after_ticked] at hothers
      simpa [Nat.add_comm] using hfirst.trans hothers

end Sys2Proof.Machine

end

/-! # The frame

The edges of a fault-free frame walk through its steps, so their lines are those of FRAME (30_encoding.md R71); and the
edges of a fault-free frame line are such edges (R70). -/

section

namespace Sys2Proof.Machine

/-! ## The trace of a frame -/

/-- Edges of steps that read no input, taken one by one. -/
theorem Unread.cons {n : Nat} {l : List PortInputs} (h : Unread (n + 1) l) :
    ∃ e l', l = e :: l' ∧ e.rst = false ∧ Unread n l' := by
  obtain ⟨hlen, hr⟩ := h
  obtain ⟨e, l', rfl⟩ := List.exists_cons_of_length_eq_add_one hlen
  exact ⟨e, l', rfl, hr e List.mem_cons_self, by simpa using hlen, fun x hx => hr x (List.mem_cons_of_mem e hx)⟩

theorem Unread.singleton {l : List PortInputs} (h : Unread 1 l) : ∃ e, l = [e] ∧ e.rst = false := by
  obtain ⟨e, l', rfl, hr, hlen, -⟩ := h.cons
  exact ⟨e, by rw [List.length_eq_zero_iff.1 hlen], hr⟩

/-- The four steps from SYNTH_RED to PUSH_FRONT read no input (44_frame_scheduler.md R106). -/
theorem walk_synth {l l' : List PortInputs} {is : List Instr} {n : Instr} (h : Unread 4 l) (hw : Walk .writeStrip is n l') :
    Walk .synthRed (.synthRed :: .synthGreen :: .synthBlue :: .pushFront :: is) n (l ++ l') := by
  obtain ⟨e₁, l, rfl, h₁, h⟩ := h.cons
  obtain ⟨e₂, l, rfl, h₂, h⟩ := h.cons
  obtain ⟨e₃, l, rfl, h₃, h⟩ := h.cons
  obtain ⟨e₄, rfl, h₄⟩ := h.singleton
  exact .unread rfl (fun _ => trivial) h₁ <| .unread rfl (fun _ => trivial) h₂ <|
    .unread rfl (fun _ => trivial) h₃ <| .unread rfl (fun _ => trivial) h₄ hw

/-- The steps of a frame between DERIVE_DELAY and WAIT_TICK (30_encoding.md R71). -/
def bodySteps : List Instr :=
  [.sampleShape, .samplePhase, .sampleRed, .sampleGreen, .sampleBlue, .synthRed, .synthGreen, .synthBlue, .pushFront,
   .writeStrip]

theorem frameSteps_eq (d : Nat) :
    frameSteps d = [.sampleSpeed, .deriveDelay] ++ bodySteps ++ List.replicate d .waitTick ++ [.waitTick] := rfl

/-- The head of a frame: the conversion of the speed, DERIVE_DELAY's edge, and a walk through the body. -/
theorem FrameHead.parts {b : Build} {a : FrameAnswers} {l : List PortInputs} (h : FrameHead b a l) :
    ∃ c x l', l = c ++ (x ++ l') ∧ Conversion b a.speed c ∧ Unread 1 x ∧ Walk .sampleShape bodySteps .waitTick l' := by
  obtain ⟨c₁, x, c₂, c₃, c₄, c₅, c₆, y, w, rfl, h₁, hx, h₂, h₃, h₄, h₅, h₆, hy, hw⟩ := h
  refine ⟨c₁, x, c₂ ++ (c₃ ++ (c₄ ++ (c₅ ++ (c₆ ++ (y ++ (w ++ [])))))), by simp, h₁, hx, ?_⟩
  exact .visit rfl (h₂.visit rfl) <| .visit rfl (h₃.visit rfl) <| .visit rfl (h₄.visit rfl) <|
    .visit rfl (h₅.visit rfl) <| .visit rfl (h₆.visit rfl) <| walk_synth hy <| .visit rfl hw.visit <|
    .arrived .waitTick

/-- SAMPLE_SPEED and DERIVE_DELAY load the delay of the frame's speed answer into `remaining` (44_frame_scheduler.md
R109). -/
theorem traced_delay {s : State} {v : Nat} {c x rest : List PortInputs} (hs : Live s) (hop : s.op = encode .sampleSpeed)
    (hc : Conversion s.cfg v c) (hx : Unread 1 x) (hstim : s.stim = c ++ (x ++ rest)) :
    ∃ t, Traced s (c.length + x.length) [.sampleSpeed, .deriveDelay] t ∧ Live t ∧ t.op = encode .sampleShape ∧
      t.stim = rest ∧ t.remaining = BitVec.ofNat 32 (delayOf s.cfg v) := by
  obtain ⟨k, hk, hspeed⟩ := (hc.visit (i := .sampleSpeed) rfl).traced rfl hs hop hstim
  obtain ⟨e, rfl, he⟩ := hx.singleton
  have hlive := hs.passed .sampleSpeed .deriveDelay k
  have hstim' : (s.passed .sampleSpeed .deriveDelay k).stim = e :: rest := by simp [hstim, hk]
  have hcomp : completes .deriveDelay (s.passed .sampleSpeed .deriveDelay k) := trivial
  have hderive := (hlive.runs rfl hstim' he).traced_of_not_waits (exec_of_completes rfl hcomp)
    (not_waits_of_completes hcomp)
  refine ⟨_, hspeed.trans hderive, hlive.passed .deriveDelay .sampleShape 0, rfl, congrArg List.tail hstim', ?_⟩
  change BitVec.ofNat 32 (delayOf (s.passed .sampleSpeed .deriveDelay k).cfg (s.after k).sampleIn) = _
  rw [State.passed_cfg, hc.sampleIn hstim hk]

/-- The head of a frame writes one line for each of its twelve steps, and comes to WAIT_TICK with the whole delay
remaining. -/
theorem FrameHead.traced {s : State} {a : FrameAnswers} {l rest : List PortInputs} (hl : FrameHead s.cfg a l)
    (hs : Live s) (hop : s.op = encode .sampleSpeed) (hstim : s.stim = l ++ rest) :
    ∃ t, Traced s l.length ([.sampleSpeed, .deriveDelay] ++ bodySteps) t ∧ Live t ∧ t.op = encode .waitTick ∧
      t.stim = rest ∧ t.remaining = BitVec.ofNat 32 (delayOf s.cfg a.speed) := by
  obtain ⟨c, x, l, rfl, hc, hx, hwalk⟩ := hl.parts
  obtain ⟨t, hdelay, ht, htop, htstim, htrem⟩ := traced_delay hs hop hc hx (rest := l ++ rest) (by simp [hstim])
  obtain ⟨u, hbody, hu, huop, hustim, hurem⟩ := hwalk.traced ht htop htstim (by decide)
  exact ⟨u, by simpa [Nat.add_assoc] using hdelay.trans hbody, hu, huop, hustim, hurem.trans htrem⟩

/-- WAIT_TICK with d milliseconds remaining writes d lines for the ticks and one for its exit (44_frame_scheduler.md
R111). -/
theorem traced_wait {s : State} {d : Nat} {c x rest : List PortInputs} (hs : Live s) (hop : s.op = encode .waitTick)
    (hrem : s.remaining = BitVec.ofNat 32 d) (hd : d < 2 ^ 32) (hc : Counting d c) (hx : Unread 1 x)
    (hstim : s.stim = c ++ (x ++ rest)) :
    ∃ t, Traced s (c.length + x.length) (List.replicate d .waitTick ++ [.waitTick]) t := by
  obtain ⟨e, rfl, he⟩ := hx.singleton
  have hcount := hc.traced hs hop hstim (by rw [hrem, BitVec.toNat_ofNat, Nat.mod_eq_of_lt hd])
  have hlive : Live (s.ticked d c.length) := ⟨hs.reset_seen, hs.supported⟩
  have hlast : (s.ticked d c.length).stim = e :: rest := by simp [State.ticked, hstim]
  have hzero : completes .waitTick (s.ticked d c.length) := by simp [completes, State.ticked, hrem]
  exact ⟨_, hcount.trans ((hlive.runs hop hlast he).traced_of_not_waits (exec_of_completes rfl hzero)
    (not_waits_of_completes hzero))⟩

/-- A fault-free frame writes the lines of FRAME (30_encoding.md R71). -/
theorem FaultFreeFrame.traced {s : State} {a : FrameAnswers} {l rest : List PortInputs}
    (hl : FaultFreeFrame s.cfg a l) (hs : Live s) (hop : s.op = encode .sampleSpeed) (hstim : s.stim = l ++ rest) :
    ∃ t, Traced s l.length (frameSteps (specDelay s.cfg.toParams a.speed)) t := by
  obtain ⟨h, c, x, rfl, hhead, hcount, hx⟩ := hl
  obtain ⟨t, hh, ht, htop, htstim, htrem⟩ := hhead.traced hs hop (rest := c ++ (x ++ rest)) (by simp [hstim])
  have hd : delayOf s.cfg a.speed < 2 ^ 32 := delayWord_toNat s.cfg a.speed ▸ BitVec.isLt _
  rw [delayOf_eq] at htrem hd
  obtain ⟨u, hw⟩ := traced_wait ht htop htrem hd hcount hx htstim
  exact ⟨u, by simpa [frameSteps_eq, Nat.add_assoc] using hh.trans hw⟩

/-- Settles O59: the frame's lines are those of the steps of FRAME, whose codes are the digits of R71. -/
theorem frameTraceEncoding : Obligations.FrameTraceEncoding := by
  intro s a l rest hs hop hl hstim
  obtain ⟨t, ht⟩ := hl.traced hs.live hop hstim
  have htrace : traceEncoding (traceRun l.length s) = encodeAll (frameSteps (specDelay s.cfg.toParams a.speed)) := by
    rw [traceEncoding, ht.steps]
  refine ⟨?_, htrace.symm⟩
  rw [htrace, List.replicate_succ']
  simp [frameSteps, encodeAll, encode]

/-! ## The edges of a frame line -/

theorem lt_two_pow_of_le_fullScale {p : Params} {v : Nat} (h : v ≤ p.fullScale) : v < 2 ^ p.sampleBits := by
  have hpos := Nat.two_pow_pos p.sampleBits
  unfold Params.fullScale at h
  omega

/-- A sample field with a value stands for a conversion without hold edges (30_encoding.md R70). -/
theorem conversion_sampleEdge {b : Build} {v : Nat} (h : v ≤ b.fullScale) : Conversion b v [sampleEdge (.value v)] :=
  ⟨[], sampleEdge (.value v), rfl, by simp, rfl, rfl, rfl, Nat.mod_eq_of_lt (lt_two_pow_of_le_fullScale h)⟩

/-- The field `write=ok` stands for a transmission without hold edges. -/
theorem transmission_writeEdge : Transmission [writeEdge .ok] := ⟨[], writeEdge .ok, rfl, by simp, rfl, rfl, rfl⟩

theorem unread_idle (n : Nat) : Unread n (List.replicate n PortInputs.idle) :=
  ⟨List.length_replicate, fun e he => by rw [List.eq_of_mem_replicate he]; rfl⟩

theorem counting_tickEdge (d : Nat) : Counting d (List.replicate d tickEdge) := by
  refine ⟨fun e he => by rw [List.eq_of_mem_replicate he]; rfl, by simp [tickEdge], fun e he => ?_⟩
  rw [List.eq_of_mem_replicate (List.mem_of_getLast? he)]
  rfl

/-- Settles O53: part by part, the edges of the line are those of the frame without hold edges. -/
theorem frameLineStandsForAFrame : Obligations.FrameLineStandsForAFrame := by
  intro b a hspeed hshape hphase hred hgreen hblue
  refine ⟨_, List.replicate (specDelay b.toParams a.speed) tickEdge, [PortInputs.idle], ?_,
    ⟨_, _, _, _, _, _, _, _, _, rfl, conversion_sampleEdge hspeed, unread_idle 1, conversion_sampleEdge hshape,
      conversion_sampleEdge hphase, conversion_sampleEdge hred, conversion_sampleEdge hgreen, conversion_sampleEdge hblue,
      unread_idle 4, transmission_writeEdge⟩,
    counting_tickEdge _, unread_idle 1⟩
  simp [frameEdges, answerThen, writeThen, waitEdges, delayOfAnswer, delayOf_eq]

end Sys2Proof.Machine

end

/-! # The SAMPLE steps

The six SAMPLE steps differ in their channel, their register and their successor alone (40_sample_source.md R73), so what
one of them requests and answers is said once for all six. -/

section

namespace Sys2Proof.Machine

/-- A step that waits answers its own state (44_frame_scheduler.md R106). -/
theorem exec_of_waits {i : Instr} {s : State} (hw : waits i s) : exec i s = .next s := by
  obtain ⟨u, hu⟩ := exec_answers_next i s
  rw [hu]
  cases exec_result hu with
  | completed n hn hc => exact absurd hw (not_waits_of_completes hc)
  | sampleFault hi hf => exact absurd hw (not_waits_of_smpFault hi hf)
  | transmitFault hi he hp =>
    subst hi
    simp [waits, he] at hw
  | counted hi hr ht =>
    subst hi
    simp [waits, ht] at hw
  | held _ => rfl

/-- A failure that the sample source reports beats its answer: the step enters the fault (40_sample_source.md R74). -/
theorem exec_of_smpFault {i : Instr} {s : State} (hi : i.isSample = true) (hf : s.now.smpFault = true) :
    exec i s = .next (s.enterFault FaultCode.sample i) := by
  obtain ⟨u, hu⟩ := exec_answers_next i s
  rw [hu]
  cases exec_result hu with
  | completed n hn hc => exact absurd hc (not_completes_of_smpFault hi hf)
  | sampleFault _ _ => rfl
  | transmitFault hi' he hp =>
    subst hi'
    cases hi
  | counted hi' hr ht =>
    subst hi'
    cases hi
  | held hw => exact absurd hw (not_waits_of_smpFault hi hf)

/-- While `op` names a SAMPLE step, the port requests that step's channel (40_sample_source.md R73). -/
theorem request_of_channel {i : Instr} {c : Channel} {s : State} (hc : i.channel = some c) (hop : s.op = encode i) :
    decodeOp s.op = .ok i ∧ smpReq s = true ∧ smpCh s = c.code := by
  have hport : s.channel? = some c := (State.channel?_of_op hop).trans hc
  exact ⟨by rw [hop, decodeOp_encode], by rw [smpReq, hport, Option.isSome_some], smpCh_of_channel hport⟩

/-- What a SAMPLE step with channel c and successor n requests, and what it answers to a failure, to a sample and to neither
(40_sample_source.md R73, R74). -/
theorem sampleStep_request_and_answers {i n : Instr} {c : Channel} (hi : i.isSample = true) (hc : i.channel = some c)
    (hn : successor i = some n) (s : State) :
    (s.op = encode i → decodeOp s.op = .ok i ∧ smpReq s = true ∧ smpCh s = c.code) ∧
    (s.now.smpFault = true → exec i s = .next (s.enterFault FaultCode.sample i)) ∧
    (s.now.smpFault = false → s.now.smpAck = true → exec i s = .next ((s.written i).goto n)) ∧
    (s.now.smpFault = false → s.now.smpAck = false → exec i s = .next s) :=
  ⟨request_of_channel hc, exec_of_smpFault hi, fun hf ha => exec_of_completes hn (completes_of_isSample hi ha hf),
    fun hf ha => exec_of_waits (waits_of_isSample hi hf ha)⟩

/-- Settles O21: the SAMPLE step with channel Speed, register `speed_s` and successor DERIVE_DELAY. -/
theorem sampleSpeedStoresFaultsOrHolds : Obligations.SampleSpeedStoresFaultsOrHolds :=
  sampleStep_request_and_answers (i := .sampleSpeed) (n := .deriveDelay) (c := .speed) rfl rfl rfl

/-- Settles O22: the SAMPLE step with channel Shape, register `shape_s` and successor SAMPLE_PHASE. -/
theorem sampleShapeStoresFaultsOrHolds : Obligations.SampleShapeStoresFaultsOrHolds :=
  sampleStep_request_and_answers (i := .sampleShape) (n := .samplePhase) (c := .shape) rfl rfl rfl

/-- Settles O23: the SAMPLE step with channel Phase, register `phase_s` and successor SAMPLE_RED. -/
theorem samplePhaseStoresFaultsOrHolds : Obligations.SamplePhaseStoresFaultsOrHolds :=
  sampleStep_request_and_answers (i := .samplePhase) (n := .sampleRed) (c := .phase) rfl rfl rfl

/-- Settles O24: the SAMPLE step with channel RedLevel, register `red_s` and successor SAMPLE_GREEN. -/
theorem sampleRedStoresFaultsOrHolds : Obligations.SampleRedStoresFaultsOrHolds :=
  sampleStep_request_and_answers (i := .sampleRed) (n := .sampleGreen) (c := .redLevel) rfl rfl rfl

/-- Settles O25: the SAMPLE step with channel GreenLevel, register `green_s` and successor SAMPLE_BLUE. -/
theorem sampleGreenStoresFaultsOrHolds : Obligations.SampleGreenStoresFaultsOrHolds :=
  sampleStep_request_and_answers (i := .sampleGreen) (n := .sampleBlue) (c := .greenLevel) rfl rfl rfl

/-- Settles O26: the SAMPLE step with channel BlueLevel, register `blue_s` and successor SYNTH_RED. -/
theorem sampleBlueStoresFaultsOrHolds : Obligations.SampleBlueStoresFaultsOrHolds :=
  sampleStep_request_and_answers (i := .sampleBlue) (n := .synthRed) (c := .blueLevel) rfl rfl rfl

end Sys2Proof.Machine

end

/-! # The SYNTH steps

The three SYNTH steps share one datapath and differ in their channel sample and their multiplier of the phase delay alone
(41_waveform_synthesis.md R89, R96), so its facts are proved once for any channel and multiplier. -/

section

namespace Sys2Proof.Machine

/-! ## The table index -/

/-- Settles O30: the index's remainder may be taken of `time` first, and modulo 256 after any modulo 2^32. -/
theorem waveIndexReductions : Obligations.WaveIndexReductions := by
  intro b time k phase
  obtain ⟨-, -, hwave, -⟩ := b.legal
  have hval := waveIndex_val b time k phase
  refine ⟨hval, by rw [hval, Nat.mod_add_mod], (waveIndex b time k phase).isLt, hwave, fun h256 => ⟨?_, ?_⟩⟩
  · rw [hval, h256, BitVec.toNat_ofNat]
  · rw [hval, h256, Nat.mod_mod_of_dvd _ (by decide)]

/-- A phase below 8 is shifted out (41_waveform_synthesis.md R82). -/
theorem phaseDelay_eq_zero_of_lt {phase : Sample} (h : phase < 8) : phaseDelay phase = 0 := by
  rw [phaseDelay, Nat.shiftRight_eq_div_pow]
  exact Nat.div_eq_of_lt h

/-- Without a phase delay the index is free of the multiplier (41_waveform_synthesis.md R95). -/
theorem waveIndex_eq_of_phaseDelay_zero {phase : Sample} (h : phaseDelay phase = 0) (b : Build) (time : Word32) (j k : Nat) :
    waveIndex b time j phase = waveIndex b time k phase := by
  simp only [waveIndex, h, Nat.mul_zero]

/-! ## The channel value -/

/-- The shared datapath as the low 8 bits of R87's sum (41_waveform_synthesis.md R87). -/
theorem synthesize_eq_ofNat (s : State) (k : Nat) (ch : Sample) :
    synthesize s k ch =
      BitVec.ofNat 8 (specSum s.cfg.toParams ch (specWave s.cfg.toParams s.time.toNat k s.phaseS) s.shapeS) := by
  apply BitVec.eq_of_toNat_eq
  rw [synthesize_toNat, specChannel, BitVec.toNat_ofNat]

/-- With shape 0 only the DC component is left (41_waveform_synthesis.md R93). -/
theorem specSum_shape_zero (p : Params) (ch w : Nat) :
    specSum p ch w 0 = ch * (2 ^ p.sampleBits - 1) / 2 ^ p.k2 / 2 ^ p.k3 := by
  simp [specSum]

/-- With shape FULL_SCALE only the sine component is left (41_waveform_synthesis.md R93). -/
theorem specSum_shape_fullScale (p : Params) (ch w : Nat) :
    specSum p ch w (2 ^ p.sampleBits - 1) = ch * w * (2 ^ p.sampleBits - 1) / 2 ^ p.k1 / 2 ^ p.k3 := by
  simp [specSum]

/-- The unreduced sum is non-decreasing in the channel sample: both components are (41_waveform_synthesis.md R94). -/
theorem specSum_mono (p : Params) {ch ch' : Nat} (h : ch ≤ ch') (w s : Nat) : specSum p ch w s ≤ specSum p ch' w s := by
  unfold specSum
  gcongr

/-- Settles O34: the sum is monotone, and neither sum is changed by its reduction to 8 bits. -/
theorem channelMonotoneWhereCalibrated : Obligations.ChannelMonotoneWhereCalibrated := by
  intro b w s ch ch' hch _ hsum
  have hmono := specSum_mono b.toParams hch w.toNat s
  rw [mac_toNat, mac_toNat, Nat.mod_eq_of_lt (by omega), Nat.mod_eq_of_lt (by omega)]
  exact hmono

/-! ## The widths of the datapath -/

/-- The three-operand product fits 2N+8 bits (41_waveform_synthesis.md R88). -/
theorem sineProduct_lt {p : Params} {ch s : Nat} (hch : ch ≤ p.fullScale) (hs : s ≤ p.fullScale) (w : Level) :
    ch * w.toNat * s < 2 ^ (2 * p.sampleBits + 8) := by
  have hsplit : 2 ^ (2 * p.sampleBits + 8) = 2 ^ p.sampleBits * 2 ^ 8 * 2 ^ p.sampleBits := by ring
  rw [hsplit]
  exact Nat.mul_lt_mul'' (Nat.mul_lt_mul'' (lt_two_pow_of_le_fullScale hch) w.isLt) (lt_two_pow_of_le_fullScale hs)

/-- The two-operand product fits 2N bits (41_waveform_synthesis.md R88). -/
theorem dcProduct_lt {p : Params} {ch : Nat} (hch : ch ≤ p.fullScale) (s : Nat) :
    ch * (p.fullScale - s) < 2 ^ (2 * p.sampleBits) := by
  rw [Nat.two_mul, Nat.pow_add]
  exact Nat.mul_lt_mul'' (lt_two_pow_of_le_fullScale hch) (lt_two_pow_of_le_fullScale (Nat.sub_le _ _))

/-- An adder wider than both of its operands loses no carry. -/
theorem toNat_add_setWidth {m n k : Nat} (x : BitVec m) (y : BitVec n) (hm : m < k) (hn : n < k) :
    (x.setWidth k + y.setWidth k).toNat = x.toNat + y.toNat := by
  have hx : x.toNat < 2 ^ (k - 1) := x.isLt.trans_le (Nat.pow_le_pow_right (by decide) (by omega))
  have hy : y.toNat < 2 ^ (k - 1) := y.isLt.trans_le (Nat.pow_le_pow_right (by decide) (by omega))
  have hk : 2 ^ (k - 1) + 2 ^ (k - 1) = 2 ^ k := by rw [← Nat.two_mul, Nat.mul_comm, Nat.two_pow_pred_mul_two (by omega)]
  rw [BitVec.toNat_add, BitVec.toNat_setWidth_of_le hm.le, BitVec.toNat_setWidth_of_le hn.le, Nat.mod_eq_of_lt (by omega)]

/-- Settles O33: the products fit their multipliers and the sum its adder, so the bit vectors hold the numbers of R87. -/
theorem datapathWidthsSuffice : Obligations.DatapathWidthsSuffice := by
  intro b ch s w hch hs n sine dc sum
  have hsine : sine.toNat = ch * w.toNat * s := by
    simp only [sine, ← BitVec.ofNat_mul]
    exact (BitVec.toNat_ofNat _ _).trans (Nat.mod_eq_of_lt (sineProduct_lt hch hs w))
  have hdc : dc.toNat = ch * (b.fullScale - s) := by
    simp only [dc, ← BitVec.ofNat_mul]
    exact (BitVec.toNat_ofNat _ _).trans (Nat.mod_eq_of_lt (dcProduct_lt hch s))
  have hsum : sum.toNat = ch * w.toNat * s / 2 ^ b.k1 + ch * (b.fullScale - s) / 2 ^ b.k2 := by
    rw [toNat_add_setWidth _ _ (by omega) (by omega), BitVec.toNat_ushiftRight, BitVec.toNat_ushiftRight, hsine, hdc,
      Nat.shiftRight_eq_div_pow, Nat.shiftRight_eq_div_pow]
  refine ⟨hsine, hdc, hsum, BitVec.eq_of_toNat_eq ?_⟩
  rw [mac_toNat, BitVec.toNat_setWidth, BitVec.toNat_ushiftRight, hsum, Nat.shiftRight_eq_div_pow]
  rfl

/-! ## The three steps -/

/-- SYNTH_RED writes the datapath's value and goes on (41_waveform_synthesis.md R90). -/
theorem exec_synthRed (s : State) :
    exec .synthRed s = .next ({ s with rV := synthesize s 0 s.redS }.goto .synthGreen) :=
  exec_of_completes rfl trivial

/-- SYNTH_GREEN writes the datapath's value and goes on (41_waveform_synthesis.md R91). -/
theorem exec_synthGreen (s : State) :
    exec .synthGreen s = .next ({ s with gV := synthesize s 1 s.greenS }.goto .synthBlue) :=
  exec_of_completes rfl trivial

/-- SYNTH_BLUE writes the datapath's value and goes on (41_waveform_synthesis.md R92). -/
theorem exec_synthBlue (s : State) :
    exec .synthBlue s = .next ({ s with bV := synthesize s 2 s.blueS }.goto .pushFront) :=
  exec_of_completes rfl trivial

/-- Settles O27: the datapath with multiplier 0, whose index is that of `time` alone. -/
theorem synthRedComputesItsChannel : Obligations.SynthRedComputesItsChannel := by
  intro s
  have hrun := exec_synthRed s
  rw [synthesize_eq_ofNat, specWave, Nat.zero_mul, Nat.add_zero] at hrun
  exact hrun

/-- Settles O28: the datapath with multiplier 1. -/
theorem synthGreenComputesItsChannel : Obligations.SynthGreenComputesItsChannel := by
  intro s
  have hrun := exec_synthGreen s
  rw [synthesize_eq_ofNat, specWave, Nat.one_mul] at hrun
  exact hrun

/-- Settles O29: the datapath with multiplier 2. -/
theorem synthBlueComputesItsChannel : Obligations.SynthBlueComputesItsChannel := by
  intro s
  have hrun := exec_synthBlue s
  rw [synthesize_eq_ofNat, specWave] at hrun
  exact hrun

/-! ## The ends of the cross-fade and of the phase -/

theorem rV_of_exec_synthRed {s t : State} (h : exec .synthRed s = .next t) : t.rV = synthesize s 0 s.redS := by
  cases (exec_synthRed s).symm.trans h
  rfl

theorem gV_of_exec_synthGreen {s t : State} (h : exec .synthGreen s = .next t) : t.gV = synthesize s 1 s.greenS := by
  cases (exec_synthGreen s).symm.trans h
  rfl

theorem bV_of_exec_synthBlue {s t : State} (h : exec .synthBlue s = .next t) : t.bV = synthesize s 2 s.blueS := by
  cases (exec_synthBlue s).symm.trans h
  rfl

/-- The datapath at shape 0: the DC path (41_waveform_synthesis.md R93). -/
theorem synthesize_shape_zero {s : State} (hs : s.shapeS = 0) (k : Nat) (ch : Sample) :
    (synthesize s k ch).toNat = ch * (2 ^ s.cfg.sampleBits - 1) / 2 ^ s.cfg.k2 / 2 ^ s.cfg.k3 % 256 := by
  rw [synthesize_toNat, specChannel, hs, specSum_shape_zero]

/-- The datapath at shape FULL_SCALE: the waveform path (41_waveform_synthesis.md R93). -/
theorem synthesize_shape_fullScale {s : State} (hs : s.shapeS = 2 ^ s.cfg.sampleBits - 1) (k : Nat) (ch : Sample) :
    (synthesize s k ch).toNat = ch * specWave s.cfg.toParams s.time.toNat k s.phaseS * (2 ^ s.cfg.sampleBits - 1)
      / 2 ^ s.cfg.k1 / 2 ^ s.cfg.k3 % 256 := by
  rw [synthesize_toNat, specChannel, hs, specSum_shape_fullScale]

/-- Settles O32: each step writes the datapath's value, and at each end one component vanishes. -/
theorem crossFadeEnds : Obligations.CrossFadeEnds := by
  intro s t
  refine ⟨fun h hs => ?_, fun h hs => ?_, fun h hs => ?_, fun h hs => ?_, fun h hs => ?_, fun h hs => ?_⟩
  · rw [rV_of_exec_synthRed h, synthesize_shape_zero hs]
  · rw [gV_of_exec_synthGreen h, synthesize_shape_zero hs]
  · rw [bV_of_exec_synthBlue h, synthesize_shape_zero hs]
  · rw [rV_of_exec_synthRed h, synthesize_shape_fullScale hs]
  · rw [gV_of_exec_synthGreen h, synthesize_shape_fullScale hs]
  · rw [bV_of_exec_synthBlue h, synthesize_shape_fullScale hs]

/-- Without a phase delay equal channel samples give equal values (41_waveform_synthesis.md R95). -/
theorem synthesize_eq_of_phaseDelay_zero {s : State} (h : phaseDelay s.phaseS = 0) (j k : Nat) (ch : Sample) :
    synthesize s j ch = synthesize s k ch := by
  rw [synthesize, synthesize, waveIndex_eq_of_phaseDelay_zero h s.cfg s.time j k]

/-- Settles O35: no step between writes what the next one reads, so all three values are the datapath's in the first
state, with one index. -/
theorem smallPhaseGivesEqualChannels : Obligations.SmallPhaseGivesEqualChannels := by
  intro s s₁ s₂ s₃ hphase h₁ h₂ h₃
  have hdelay := phaseDelay_eq_zero_of_lt hphase
  refine ⟨⟨hdelay, waveIndex_eq_of_phaseDelay_zero hdelay _ _ _ _, waveIndex_eq_of_phaseDelay_zero hdelay _ _ _ _⟩, ?_⟩
  intro hrg hgb
  cases (exec_synthRed s).symm.trans h₁
  cases (exec_synthGreen _).symm.trans h₂
  cases (exec_synthBlue _).symm.trans h₃
  change synthesize s 0 s.redS = synthesize s 1 s.greenS ∧ synthesize s 1 s.greenS = synthesize s 2 s.blueS
  rw [hrg, hgb]
  exact ⟨synthesize_eq_of_phaseDelay_zero hdelay _ _ _, synthesize_eq_of_phaseDelay_zero hdelay _ _ _⟩

end Sys2Proof.Machine

end

/-! # The history buffer

A push takes the first NUM_LEDS entries of the new color followed by the old buffer, so its entries are read off that list;
PUSH_FRONT writes exactly that push. -/

section

namespace Sys2Proof.Machine

/-! ## The fields of a packed color -/

theorem packColor_red (r g b : Level) : (packColor r g b).extractLsb' 16 8 = r := by
  rw [packColor, BitVec.extractLsb'_append_eq_of_le (by decide), BitVec.extractLsb'_append_eq_left]

theorem packColor_green (r g b : Level) : (packColor r g b).extractLsb' 8 8 = g := by
  rw [packColor, BitVec.extractLsb'_append_eq_of_le (by decide), BitVec.extractLsb'_append_eq_right]

theorem packColor_blue (r g b : Level) : (packColor r g b).extractLsb' 0 8 = b :=
  BitVec.extractLsb'_append_eq_right

/-! ## The entries of a pushed buffer -/

/-- A legal build has a head to write (42_history_buffer.md R99). -/
theorem numLeds_pos (b : Build) : 0 < b.numLeds := b.legal.2.2.2.2.2.2

theorem pushColor_getElem?_zero (b : Build) (c : Color) (hist : List Color) : (pushColor b c hist)[0]? = some c :=
  List.getElem?_take_of_lt (numLeds_pos b)

/-- Each old entry moves one place toward the tail (42_history_buffer.md R98). -/
theorem pushColor_getElem?_succ {b : Build} {i : Nat} (hi : i + 1 < b.numLeds) (c : Color) (hist : List Color) :
    (pushColor b c hist)[i + 1]? = hist[i]? :=
  List.getElem?_take_of_lt hi

/-- What falls off the tail is not held anywhere beyond it (42_history_buffer.md R98). -/
theorem pushColor_getElem?_of_le {b : Build} {i : Nat} (hi : b.numLeds ≤ i) (c : Color) (hist : List Color) :
    (pushColor b c hist)[i]? = none :=
  List.getElem?_take_eq_none hi

/-! ## The step -/

/-- PUSH_FRONT pushes the packed color and goes on (42_history_buffer.md R97). -/
theorem exec_pushFront (s : State) :
    exec .pushFront s =
      .next ({ s with hist := pushColor s.cfg (packColor s.rV s.gV s.bV) s.hist }.goto .writeStrip) :=
  exec_of_completes rfl trivial

theorem hist_of_exec_pushFront {s t : State} (h : exec .pushFront s = .next t) :
    t.hist = pushColor s.cfg (packColor s.rV s.gV s.bV) s.hist := by
  cases (exec_pushFront s).symm.trans h
  rfl

/-- PUSH_FRONT is the buffer's only writer (20_memory.md R46). -/
theorem hist_of_exec_of_ne_pushFront {i : Instr} {s t : State} (hi : i ≠ .pushFront) (h : exec i s = .next t) :
    t.hist = s.hist := by
  obtain ⟨-, -, -, -, -, -, -, -, -, -, hhist, -⟩ := eachRegisterHasItsWriters i s t h
  exact hhist hi

/-- Settles O36: the color is the packed one, and in a buffer of NUM_LEDS entries the push drops the oldest. -/
theorem pushFrontInsertsAtTheHead : Obligations.PushFrontInsertsAtTheHead := by
  intro s hwf
  refine ⟨packColor s.rV s.gV s.bV, packColor_red .., packColor_green .., packColor_blue .., ?_⟩
  rw [exec_pushFront, pushColor_eq _ _ _ hwf]
  rfl

/-- Settles O37: the entries of the next state are those of the pushed buffer, and the list of writers (O45) names no other
step. -/
theorem pushFrontShiftsEveryEntry : Obligations.PushFrontShiftsEveryEntry := by
  refine ⟨fun s t hwf h => ?_, fun _ _ _ => hist_of_exec_of_ne_pushFront⟩
  simp only [histEntry, hist_of_exec_pushFront h]
  refine ⟨pushColor_getElem?_zero .., fun i hi hlt => ?shifted, fun i hi => pushColor_getElem?_of_le hi ..,
    hist_length_of_wf (pushColor_wf _ _ _ hwf)⟩
  case shifted =>
    obtain ⟨j, rfl⟩ := Nat.exists_eq_add_of_le' hi
    exact pushColor_getElem?_succ hlt ..

end Sys2Proof.Machine

end

/-! # The strip writer

WRITE_STRIP holds while its inputs are both 0 and then completes or faults (43_strip_writer.md R101, R102). None of these
results writes `hist`, so the colors on the port stay as they were on the first edge of the request. -/

section

namespace Sys2Proof.Machine

/-! ## The step -/

/-- Under HALT an error that the strip writer reports enters the fault, whatever `wr_done` (43_strip_writer.md R102). -/
theorem exec_writeStrip_of_wrErr_of_halt {s : State} (he : s.now.wrErr = true) (hp : s.cfg.txFaultPolicy = .halt) :
    exec .writeStrip s = .next (s.enterFault FaultCode.transmit .writeStrip) := by
  obtain ⟨u, hu⟩ := exec_answers_next .writeStrip s
  obtain ⟨-, -, rfl⟩ | ⟨hgo, -⟩ | ⟨hhold, -⟩ := stripHandshake_cases hu
  · exact hu
  · simp [he, hp] at hgo
  · simp [he] at hhold

/-- Settles O38: the error is taken by the build's policy; without it the step completes or waits. -/
theorem writeStripCompletesFaultsOrHolds : Obligations.WriteStripCompletesFaultsOrHolds := by
  intro s
  refine ⟨exec_writeStrip_of_wrErr_of_halt, fun he hp => ?skipped, fun he hd => ?completed, fun he hd => ?held⟩
  case skipped => exact exec_of_completes (i := .writeStrip) rfl (Or.inr ⟨he, hp⟩)
  case completed => exact exec_of_completes (i := .writeStrip) rfl (Or.inl ⟨hd, he⟩)
  case held => exact exec_of_waits (i := .writeStrip) ⟨he, hd⟩

/-! ## Edges on which a step holds -/

theorem now_after (s : State) (k : Nat) : (s.after k).now = s.inputAt k := by
  rw [now_eq_inputAt, inputAt_after, Nat.add_zero]

/-- After k edges that leave the block as it is, the next one runs the step that `op` has named all along. -/
theorem Live.runs_after {i : Instr} {s : State} {k : Nat} (hs : Live s) (hop : s.op = encode i)
    (hr : (s.inputAt k).rst = false) : Runs i (s.after k) :=
  ⟨by rwa [now_after], hs.reset_seen, hs.supported, hop⟩

/-- Edges on which a step waits change nothing of the block, whether their inputs are listed or free
(44_frame_scheduler.md R106). -/
theorem Live.run_of_waits {i : Instr} {s : State} (hs : Live s) (hop : s.op = encode i) (k : Nat)
    (hr : ∀ j, j < k → (s.inputAt j).rst = false) (hw : ∀ j, j < k → waits i (s.after j)) :
    Host.Core.run Sys2Proof.core k s = .next (s.after k) := by
  induction k with
  | zero => rfl
  | succ k ih =>
    have hfirst := ih (fun j hj => hr j (by omega)) fun j hj => hw j (by omega)
    have hlast := ((hs.runs_after hop (hr k k.lt_succ_self)).traced_of_waits (hw k k.lt_succ_self)).run
    rw [run_add k 1 hfirst, hlast, State.after_after]

/-! ## The port -/

/-- The strip port shows the buffer and the build's brightness, and nothing else of the state (10_state.md R40). -/
theorem stripPort_eq {s t : State} (hhist : t.hist = s.hist) (hcfg : t.cfg = s.cfg) :
    (wrColors t).toNat = (wrColors s).toNat ∧ wrBrightness t = wrBrightness s := by
  simp [wrColors, wrBrightness, hhist, hcfg]

/-- Every step but PUSH_FRONT leaves the strip port's data as it was (20_memory.md R46, 43_strip_writer.md R101). -/
theorem stripPort_of_exec {i : Instr} {s t : State} (hi : i ≠ .pushFront) (h : exec i s = .next t) :
    (wrColors t).toNat = (wrColors s).toNat ∧ wrBrightness t = wrBrightness s := by
  obtain ⟨-, -, -, -, -, -, -, -, -, -, -, -, -, -, hcfg, -⟩ := eachRegisterHasItsWriters i s t h
  exact stripPort_eq (hist_of_exec_of_ne_pushFront hi h) hcfg

theorem wrReq_of_op {s : State} (hop : s.op = encode .writeStrip) : wrReq s = true := by
  rw [wrReq, hop, beq_self_eq_true]

/-- Settles O39: the step waits on the first k edges; on the next one it runs once more, and it does not write what the
port shows. -/
theorem stripFrameIsStable : Obligations.StripFrameIsStable := by
  intro k s t hop hseen hcode hrst hhold
  have hs : Live s := ⟨hseen, hcode⟩
  have hheld : Host.Core.run Sys2Proof.core k s = .next (s.after k) := by
    refine hs.run_of_waits (i := .writeStrip) hop k (fun j hj => hrst j hj.le) fun j hj => ?_
    obtain ⟨hdone, herr⟩ := hhold j hj
    exact ⟨by rwa [now_after], by rwa [now_after]⟩
  refine ⟨hheld, wrReq_of_op hop, fun hrun => ?_⟩
  have hruns : Runs .writeStrip (s.after k) := hs.runs_after hop (hrst k le_rfl)
  obtain ⟨u, hu⟩ := exec_answers_next .writeStrip (s.after k)
  rw [run_add k 1 hheld, run_succ 0 (hruns.step_next hu)] at hrun
  cases hrun
  -- The port shows no field of the environment, which is all that the ends of the edges move on.
  have hport := stripPort_of_exec (by decide) hu
  exact hport

end Sys2Proof.Machine

end

/-! # The frame scheduler's steps

What an edge runs, where a step goes, what DERIVE_DELAY and WAIT_TICK answer, and who reads `ms_tick`
(44_frame_scheduler.md). -/

section

namespace Sys2Proof.Machine

/-! ## The edge -/

/-- Settles O5: with the decoder read backwards, the hypotheses are those of an edge that runs a step. -/
theorem edgeRunsTheDecodedStep : Obligations.EdgeRunsTheDecodedStep := by
  intro s t i hr hseen hcode hop h
  have hi : Runs i s := ⟨hr, hseen, hcode, (decodeOp_ok_iff s.op i).1 hop⟩
  exact hi.step_next h

/-! ## The successor table -/

/-- INIT completes on every edge (44_frame_scheduler.md R107). -/
theorem exec_init (s : State) : exec .init s = .next (s.goto .sampleSpeed) := exec_of_completes rfl trivial

/-- No step goes to INIT, and INIT does not stay there (44_frame_scheduler.md R107). -/
theorem exec_op_ne_init {i : Instr} {s t : State} (hop : s.op = encode i) (h : exec i s = .next t) : t.op ≠ 0x0#4 := by
  cases exec_result h with
  | completed n hn hc => exact (successor_ne_init_halted hn).1
  | sampleFault hi hf => rw [State.enterFault_op]; decide
  | transmitFault hi he hp => rw [State.enterFault_op]; decide
  | counted hi hr ht =>
    subst hi
    rw [State.countTick_op, hop]
    decide
  | held hw =>
    intro h0
    have hinit : i = .init := encode_injective (hop.symm.trans h0)
    subst hinit
    exact hw

/-- Settles O14: INIT completes with nothing to write, and every edge without reset runs a step. -/
theorem initWritesOnlyOpAndIsNeverReentered : Obligations.InitWritesOnlyOpAndIsNeverReentered := by
  refine ⟨exec_init, fun s t hr h => ?_⟩
  obtain ⟨i, u, hi, hu, rfl⟩ := exists_runs hr h
  rw [State.advance_op]
  exact exec_op_ne_init hi.op hu

/-- Every step but HALTED, which never completes, has a successor (44_frame_scheduler.md R106). -/
theorem exists_successor_of_completes {i : Instr} {s : State} (hc : completes i s) : ∃ n, successor i = some n := by
  cases i
  case halted => exact hc.elim
  all_goals exact ⟨_, rfl⟩

/-- A step that does not complete keeps `op` or halts with a fault (44_frame_scheduler.md R106). -/
theorem exec_op_of_not_completes {i : Instr} {s t : State} (hc : ¬ completes i s) (h : exec i s = .next t) :
    t.op = s.op ∨ (t.op = 0xF#4 ∧ t.faultCode ≠ 0#2) := by
  cases exec_result h with
  | completed n hn hc' => exact absurd hc' hc
  | sampleFault hi hf => exact .inr ⟨rfl, by rw [State.enterFault_faultCode]; decide⟩
  | transmitFault hi he hp => exact .inr ⟨rfl, by rw [State.enterFault_faultCode]; decide⟩
  | counted hi hr ht => exact .inl rfl
  | held hw => exact .inl rfl

/-- Settles O44: the result of a completing step, of one that does not complete, and of any step at all. -/
theorem sequencerFollowsTheTable : Obligations.SequencerFollowsTheTable := by
  intro i s t hop h
  refine ⟨fun hc => ?_, fun hc => exec_op_of_not_completes hc h, exec_op_ne_init hop h⟩
  obtain ⟨n, hn⟩ := exists_successor_of_completes hc
  cases (exec_of_completes hn hc).symm.trans h
  exact ⟨n, hn, rfl⟩

/-! ## HALTED -/

/-- HALTED holds on every edge (44_frame_scheduler.md R116). -/
theorem exec_halted (s : State) : exec .halted s = .next s := exec_of_waits (i := .halted) trivial

/-- Settles O19: HALTED always waits, and its code is none of those that request. -/
theorem haltedChangesNothing : Obligations.HaltedChangesNothing := by
  refine ⟨exec_halted, fun s hop => ⟨?_, ?_, ?_⟩⟩
  · rw [← Bool.not_eq_true, smpReq_iff, hop]
    decide
  · rw [wrReq, hop]
    decide
  · rw [halted, hop]
    decide

/-- Settles O20: HALTED waits on each of the edges. -/
theorem haltedIsPermanent : Obligations.HaltedIsPermanent := by
  intro k s hop hseen hcode hr
  have hs : Live s := ⟨hseen, hcode⟩
  exact hs.run_of_waits (i := .halted) hop k hr fun _ _ => trivial

/-! ## The delay law -/

/-- DERIVE_DELAY loads the delay into both registers (44_frame_scheduler.md R109). -/
theorem exec_deriveDelay (s : State) :
    exec .deriveDelay s = .next ((s.written .deriveDelay).goto .sampleShape) :=
  exec_of_completes rfl trivial

/-- The delay of a legal build fits its registers (44_frame_scheduler.md R108, 00_scope.md R13). -/
theorem specDelay_lt (b : Build) (x : Nat) : specDelay b.toParams x < 2 ^ 32 := by
  rw [← delayOf_eq, ← delayWord_toNat]
  exact BitVec.isLt _

theorem delayMs_of_exec_deriveDelay {s t : State} (h : exec .deriveDelay s = .next t) :
    t.delayMs.toNat = specDelay s.cfg.toParams s.speedS := by
  cases (exec_deriveDelay s).symm.trans h
  rw [← delayOf_eq]
  exact delayWord_toNat s.cfg s.speedS

/-- Settles O15: the loaded word is the delay, which fits it. -/
theorem deriveDelayLoadsTheDelay : Obligations.DeriveDelayLoadsTheDelay := by
  intro s
  refine ⟨BitVec.ofNat 32 (delayOf s.cfg s.speedS), ?_, exec_deriveDelay s⟩
  rw [delayWord_toNat, delayOf_eq, specDelay]

/-- Up to OFFSET the law's difference is 0 and does not underflow (44_frame_scheduler.md R110). -/
theorem specDelay_of_le_offset (b : Build) {x : Nat} (hx : x ≤ b.offset) : specDelay b.toParams x = b.minDelay := by
  obtain ⟨-, -, -, -, horder, -⟩ := b.legal
  rw [specDelay, Nat.sub_eq_zero_of_le hx, Nat.zero_mul, Nat.zero_max, Nat.min_eq_left horder]

/-- From OFFSET + ⌈MAX_DELAY / SCALE⌉ on the law saturates (44_frame_scheduler.md R110). -/
theorem specDelay_of_ceil_le (p : Params) {x : Nat} (hscale : 0 < p.scale)
    (hx : p.offset + (p.maxDelay + p.scale - 1) / p.scale ≤ x) : specDelay p x = p.maxDelay := by
  have hceil : p.maxDelay ≤ (p.maxDelay + p.scale - 1) / p.scale * p.scale := by
    have hlt := Nat.lt_div_mul_add hscale (a := p.maxDelay + p.scale - 1)
    omega
  have hmul : (p.maxDelay + p.scale - 1) / p.scale * p.scale ≤ (x - p.offset) * p.scale :=
    Nat.mul_le_mul_right _ (by omega)
  rw [specDelay, Nat.min_eq_right (le_max_of_le_left (hceil.trans hmul))]

/-- A larger speed never gives a smaller delay (44_frame_scheduler.md R110). -/
theorem specDelay_mono (p : Params) {x y : Nat} (h : x ≤ y) : specDelay p x ≤ specDelay p y := by
  unfold specDelay
  gcongr

/-- Settles O16: the loaded delay is the law's, whose range, two ends and monotonicity are read off the formula. -/
theorem delayLawIsClampedAndMonotone : Obligations.DelayLawIsClampedAndMonotone := by
  intro s t h
  rw [delayMs_of_exec_deriveDelay h]
  refine ⟨?range, specDelay_of_le_offset s.cfg, specDelay_of_ceil_le s.cfg.toParams, fun x u hx hu => ?mono⟩
  case range =>
    rw [← delayOf_eq]
    exact delayOf_range s.cfg s.speedS
  case mono =>
    rw [delayMs_of_exec_deriveDelay hu]
    exact specDelay_mono s.cfg.toParams hx

/-! ## WAIT_TICK -/

/-- Adding to a 32-bit counter counts modulo 2^32 (44_frame_scheduler.md R113). -/
theorem word_add_ofNat (x : Word32) (d : Nat) : x + BitVec.ofNat 32 d = BitVec.ofNat 32 (x.toNat + d) := by
  rw [BitVec.ofNat_add, BitVec.ofNat_toNat, BitVec.setWidth_eq]

/-- A counter that holds at least d counts down by d without a borrow. -/
theorem word_sub_ofNat {x : Word32} {d : Nat} (h : d ≤ x.toNat) :
    x - BitVec.ofNat 32 d = BitVec.ofNat 32 (x.toNat - d) := by
  bv_omega

/-- Counting d milliseconds, as the numbers that the two counters then hold (44_frame_scheduler.md R111, R113). -/
theorem State.ticked_eq {s : State} {d : Nat} (k : Nat) (h : d ≤ s.remaining.toNat) :
    s.ticked d k = { s with time := BitVec.ofNat 32 (s.time.toNat + d), remaining := BitVec.ofNat 32 (s.remaining.toNat - d),
                            stim := s.stim.drop k, edge := s.edge + k } := by
  rw [State.ticked, word_add_ofNat, word_sub_ofNat h]
  rfl

/-- Settles O17: WAIT_TICK completes, counts, or waits. -/
theorem waitTickExitsCountsOrHolds : Obligations.WaitTickExitsCountsOrHolds := by
  intro s
  refine ⟨fun hr => exec_of_completes (i := .waitTick) rfl hr, fun hr ht => ?counts,
    fun hr ht => exec_of_waits (i := .waitTick) ⟨hr, ht⟩⟩
  case counts =>
    have hpos : 1 ≤ s.remaining.toNat := by bv_omega
    rw [exec_waitTick_of_tick hr ht, ← word_add_ofNat, ← word_sub_ofNat hpos]
    rfl

/-- Settles O18, from the stretch of a run that `Counting` edges make. -/
theorem waitTickCountsEveryTick : Obligations.WaitTickCountsEveryTick := by
  intro s d l rest hop hseen hcode hstim hl hd
  have hs : Live s := ⟨hseen, hcode⟩
  rw [(hl.traced hs hop hstim hd).run, State.ticked_eq _ hd, hstim, List.drop_left]

/-! ## Ticks elsewhere -/

/-- `s` with the value v of `ms_tick` on the coming edge e. -/
def State.withTick (s : State) (e : PortInputs) (rest : List PortInputs) (v : Bool) : State :=
  { s with stim := { e with msTick := v } :: rest }

section WithTick

variable {s : State} {e : PortInputs} {rest : List PortInputs} (hstim : s.stim = e :: rest) (v : Bool)

theorem State.now_withTick : (s.withTick e rest v).now = { e with msTick := v } := rfl

include hstim

/-- The sample port does not show the tick (10_state.md R39). -/
theorem State.sampleIn_withTick : (s.withTick e rest v).sampleIn = s.sampleIn := by
  rw [State.sampleIn, State.sampleIn, State.now_withTick, now_cons hstim]
  rfl

/-- What a completing step writes does not depend on the tick. -/
theorem State.written_withTick (i : Instr) : (s.withTick e rest v).written i = (s.written i).withTick e rest v := by
  cases i with
  | sampleSpeed | sampleShape | samplePhase | sampleRed | sampleGreen | sampleBlue =>
    simp only [State.written, State.sampleIn_withTick hstim]
    rfl
  | init | deriveDelay | synthRed | synthGreen | synthBlue | pushFront | writeStrip | waitTick | halted => rfl

/-- No step's completion depends on the tick (44_frame_scheduler.md R106). -/
theorem completes_withTick {i : Instr} (h : completes i s) : completes i (s.withTick e rest v) := by
  cases i with
  | sampleSpeed | sampleShape | samplePhase | sampleRed | sampleGreen | sampleBlue | writeStrip =>
    simp only [completes, State.now_withTick, now_cons hstim] at h ⊢
    exact h
  | init | deriveDelay | synthRed | synthGreen | synthBlue | pushFront | waitTick | halted => exact h

/-- WAIT_TICK alone waits for a tick, and only while something remains (44_frame_scheduler.md R112). -/
theorem waits_withTick {i : Instr} (hi : i ≠ .waitTick ∨ s.remaining = 0#32) (h : waits i s) :
    waits i (s.withTick e rest v) := by
  cases i with
  | sampleSpeed | sampleShape | samplePhase | sampleRed | sampleGreen | sampleBlue | writeStrip =>
    simp only [waits, State.now_withTick, now_cons hstim] at h ⊢
    exact h
  | waitTick => exact (hi.elim (absurd rfl) h.1).elim
  | init | deriveDelay | synthRed | synthGreen | synthBlue | pushFront | halted => exact h

/-- Away from a count of WAIT_TICK, another tick gives the same next state and none is counted (44_frame_scheduler.md
R112). -/
theorem exec_withTick {i : Instr} {t : State} (hi : i ≠ .waitTick ∨ s.remaining = 0#32) (h : exec i s = .next t) :
    t.time = s.time ∧ exec i (s.withTick e rest v) = .next (t.withTick e rest v) := by
  cases exec_result h with
  | completed n hn hc =>
    rw [exec_of_completes hn (completes_withTick hstim v hc), State.written_withTick hstim]
    exact ⟨s.written_time, rfl⟩
  | sampleFault hs hf => exact ⟨rfl, exec_of_smpFault hs (by rwa [State.now_withTick, ← now_cons hstim])⟩
  | transmitFault hw he hp =>
    subst hw
    exact ⟨rfl, exec_writeStrip_of_wrErr_of_halt (by rwa [State.now_withTick, ← now_cons hstim]) hp⟩
  | counted hw hr ht => exact (hi.elim (absurd hw) hr).elim
  | held hw => exact ⟨rfl, exec_of_waits (waits_withTick hstim v hi hw)⟩

end WithTick

/-- Settles O46: of the five results of a step, only a count reads the tick. -/
theorem ticksElsewhereAreNotCounted : Obligations.TicksElsewhereAreNotCounted :=
  fun _ _ _ _ _ v hi hstim h => exec_withTick hstim v hi h

end Sys2Proof.Machine

end

/-! # The frame function

`Passes s l t`: over the edges l the block goes from s to t, whatever edges follow. The visits of a frame are passed one after
another, which gives its state in one record (44_frame_scheduler.md R114); frames in a row then follow by induction (R115). -/

section

namespace Sys2Proof.Machine

/-! ## Edges that take the block from one state to another -/

/-- `s` before the coming edges l, the first of them number m (log 2). -/
def State.facing (s : State) (l : List PortInputs) (m : Nat) : State := { s with stim := l, edge := m }

@[simp] theorem State.facing_time (s : State) (l : List PortInputs) (m : Nat) : (s.facing l m).time = s.time := rfl

theorem State.facing_self (s : State) : s.facing s.stim s.edge = s := rfl

/-- Over the edges l, whatever follows them and however they are numbered, the block goes from s to t. -/
structure Passes (s : State) (l : List PortInputs) (t : State) : Prop where
  live : Live s → Live t
  run : Live s → ∀ (rest : List PortInputs) (m : Nat),
    Host.Core.run Sys2Proof.core l.length (s.facing (l ++ rest) m) = .next (t.facing rest (m + l.length))

theorem Passes.trans {s t u : State} {l l' : List PortInputs} (h : Passes s l t) (h' : Passes t l' u) :
    Passes s (l ++ l') u where
  live := h'.live ∘ h.live
  run hs rest m := by
    rw [List.length_append, List.append_assoc, run_add _ _ (h.run hs _ m), h'.run (h.live hs), Nat.add_assoc]

/-! ## What a frame's visits write -/

/-- `s` with the sample v in the register of SAMPLE step i (40_sample_source.md R73). -/
def State.stored (s : State) (v : Sample) : Instr → State
  | .sampleSpeed => { s with speedS := v }
  | .sampleShape => { s with shapeS := v }
  | .samplePhase => { s with phaseS := v }
  | .sampleRed => { s with redS := v }
  | .sampleGreen => { s with greenS := v }
  | .sampleBlue => { s with blueS := v }
  | .init | .deriveDelay | .synthRed | .synthGreen | .synthBlue | .pushFront | .writeStrip | .waitTick | .halted => s

theorem Live.stored {s : State} (hs : Live s) (v : Sample) (i : Instr) : Live (s.stored v i) := by
  cases i <;> exact ⟨hs.reset_seen, hs.supported⟩

theorem Live.written {s : State} (hs : Live s) (i : Instr) : Live (s.written i) :=
  ⟨by simpa using hs.reset_seen, by simpa using hs.supported⟩

/-- A SAMPLE step that completes stores the sample on the port. -/
theorem State.written_of_isSample {i : Instr} (hi : i.isSample = true) (s : State) :
    s.written i = s.stored s.sampleIn i := by
  cases i <;> cases hi <;> rfl

theorem State.facing_stored (s : State) (l : List PortInputs) (m : Nat) (v : Sample) (i : Instr) :
    (s.facing l m).stored v i = (s.stored v i).facing l m := by
  cases i <;> rfl

/-- What the other steps write does not depend on the inputs. -/
theorem State.facing_written {i : Instr} (hi : i.isSample = false) (s : State) (l : List PortInputs) (m : Nat) :
    (s.facing l m).written i = (s.written i).facing l m := by
  cases i with
  | sampleSpeed | sampleShape | samplePhase | sampleRed | sampleGreen | sampleBlue => cases hi
  | init | deriveDelay | synthRed | synthGreen | synthBlue | pushFront | writeStrip | waitTick | halted => rfl

/-- A visit that writes w on its completing edge, whatever the edges are numbered, takes the block to w and on to the
successor. -/
theorem Visit.passes {i n : Instr} {s w : State} {l : List PortInputs} (hl : Visit i l) (hn : successor i = some n)
    (hop : s.op = encode i) (hw : Live s → Live w)
    (hwritten : ∀ (k : Nat) (rest : List PortInputs) (m : Nat), k + 1 = l.length →
      ((s.facing (l ++ rest) m).after k).written i = w.facing ((l ++ rest).drop k) (m + k)) :
    Passes s l (w.goto n) where
  live hs := ⟨(hw hs).reset_seen, (hw hs).supported⟩
  run hs rest m := by
    have hs' : Live (s.facing (l ++ rest) m) := ⟨hs.reset_seen, hs.supported⟩
    obtain ⟨k, hk, hvisit⟩ := hl.traced hn hs' hop rfl
    have hleft : ((l ++ rest).drop k).tail = rest := by rw [List.tail_drop, hk, List.drop_left]
    rw [hvisit.run, State.passed, hwritten k rest m hk, ← hk, ← Nat.add_assoc]
    exact congrArg (fun left => (.next ((w.goto n).facing left (m + k + 1)) : Result)) hleft

/-- A conversion stores its answer (40_sample_source.md R73). -/
theorem Conversion.passes {i n : Instr} {s : State} {v : Nat} {l : List PortInputs} (hl : Conversion s.cfg v l)
    (hi : i.isSample = true) (hn : successor i = some n) (hop : s.op = encode i) :
    Passes s l ((s.stored v i).goto n) := by
  refine (hl.visit hi).passes hn hop (fun hs => hs.stored v i) fun k rest m hk => ?_
  have hv : ((s.facing (l ++ rest) m).after k).sampleIn = v := Conversion.sampleIn (s := s.facing (l ++ rest) m) hl rfl hk
  rw [State.written_of_isSample hi, hv]
  exact State.facing_stored s _ _ v i

/-- A step that reads no sample writes what it computes from the state. -/
theorem Visit.passes_written {i n : Instr} {s : State} {l : List PortInputs} (hl : Visit i l) (hi : i.isSample = false)
    (hn : successor i = some n) (hop : s.op = encode i) : Passes s l ((s.written i).goto n) :=
  hl.passes hn hop (fun hs => hs.written i) fun _ _ _ _ => State.facing_written hi s _ _

/-- The edges of WAIT_TICK count their ticks (44_frame_scheduler.md R111). -/
theorem Counting.passes {d : Nat} {s : State} {l : List PortInputs} (hl : Counting d l) (hop : s.op = encode .waitTick)
    (hd : d ≤ s.remaining.toNat) :
    Passes s l { s with time := BitVec.ofNat 32 (s.time.toNat + d), remaining := BitVec.ofNat 32 (s.remaining.toNat - d) } where
  live hs := ⟨hs.reset_seen, hs.supported⟩
  run hs rest m := by
    have hs' : Live (s.facing (l ++ rest) m) := ⟨hs.reset_seen, hs.supported⟩
    exact waitTickCountsEveryTick _ d l rest hop hs'.reset_seen hs'.supported rfl hl hd

/-- With nothing remaining WAIT_TICK goes back to SAMPLE_SPEED (44_frame_scheduler.md R111). -/
theorem passes_exit {s : State} {l : List PortInputs} (hl : Unread 1 l) (hop : s.op = encode .waitTick)
    (hrem : s.remaining = 0#32) : Passes s l (s.goto .sampleSpeed) where
  live hs := ⟨hs.reset_seen, hs.supported⟩
  run hs rest m := by
    obtain ⟨e, rfl, he⟩ := hl.singleton
    have hs' : Live (s.facing (e :: rest) m) := ⟨hs.reset_seen, hs.supported⟩
    have hruns : Runs .waitTick (s.facing (e :: rest) m) := hs'.runs hop rfl he
    exact run_succ 0 (hruns.step_next (exec_of_completes rfl hrem))

/-! ## The color of a frame -/

/-- The datapath's value, in the spec's words (41_waveform_synthesis.md R87). -/
theorem synthesize_eq_specChannel (s : State) (k : Nat) (ch : Sample) :
    synthesize s k ch = BitVec.ofNat 8 (specChannel s.cfg.toParams s.time.toNat k ch s.phaseS s.shapeS) := by
  rw [← synthesize_toNat, BitVec.ofNat_toNat, BitVec.setWidth_eq]

theorem specChannel_lt (p : Params) (time k ch phase s : Nat) : specChannel p time k ch phase s < 256 :=
  Nat.mod_lt _ (by decide)

/-- The three channels of a frame, packed, are its color (20_memory.md R47). -/
theorem packColor_specChannel (p : Params) (time : Nat) (a : FrameAnswers) :
    packColor (BitVec.ofNat 8 (specChannel p time 0 a.red a.phase a.shape))
      (BitVec.ofNat 8 (specChannel p time 1 a.green a.phase a.shape))
      (BitVec.ofNat 8 (specChannel p time 2 a.blue a.phase a.shape)) = specColor p time a := by
  have hr := specChannel_lt p time 0 a.red a.phase a.shape
  have hg := specChannel_lt p time 1 a.green a.phase a.shape
  have hb := specChannel_lt p time 2 a.blue a.phase a.shape
  apply BitVec.eq_of_toNat_eq
  rw [packColor_toNat, specColor]
  simp only [BitVec.toNat_ofNat]
  omega

/-! ## The frame -/

/-- The state at WAIT_TICK after the head of a frame with the answers a that began in state s
(44_frame_scheduler.md R114). -/
def State.afterHead (s : State) (a : FrameAnswers) : State :=
  { s with
    op := encode .waitTick
    speedS := a.speed
    shapeS := a.shape
    phaseS := a.phase
    redS := a.red
    greenS := a.green
    blueS := a.blue
    rV := BitVec.ofNat 8 (specChannel s.cfg.toParams s.time.toNat 0 a.red a.phase a.shape)
    gV := BitVec.ofNat 8 (specChannel s.cfg.toParams s.time.toNat 1 a.green a.phase a.shape)
    bV := BitVec.ofNat 8 (specChannel s.cfg.toParams s.time.toNat 2 a.blue a.phase a.shape)
    hist := pushColor s.cfg (specColor s.cfg.toParams s.time.toNat a) s.hist
    delayMs := BitVec.ofNat 32 (specDelay s.cfg.toParams a.speed)
    remaining := BitVec.ofNat 32 (specDelay s.cfg.toParams a.speed) }

/-- SAMPLE_SPEED and DERIVE_DELAY store the speed and load its delay (40_sample_source.md R75, 44_frame_scheduler.md R109). -/
def State.afterDelay (s : State) (a : FrameAnswers) : State :=
  ((s.stored a.speed .sampleSpeed).written .deriveDelay).goto .sampleShape

/-- The five other conversions store their answers (40_sample_source.md R76 to R80). -/
def State.afterSamples (s : State) (a : FrameAnswers) : State :=
  (((((s.stored a.shape .sampleShape).stored a.phase .samplePhase).stored a.red .sampleRed).stored
    a.green .sampleGreen).stored a.blue .sampleBlue).goto .synthRed

/-- The SYNTH steps and PUSH_FRONT write the channels and push their color (41_waveform_synthesis.md R90 to R92,
42_history_buffer.md R97). -/
def State.afterPush (s : State) : State :=
  ((((s.written .synthRed).written .synthGreen).written .synthBlue).written .pushFront).goto .writeStrip

theorem passes_delay {s : State} {a : FrameAnswers} {c x : List PortInputs} (hop : s.op = encode .sampleSpeed)
    (hc : Conversion s.cfg a.speed c) (hx : Unread 1 x) : Passes s (c ++ x) (s.afterDelay a) := by
  obtain ⟨e, rfl, he⟩ := hx.singleton
  exact (hc.passes rfl rfl hop).trans ((visit_unread (i := .deriveDelay) (fun _ => trivial) he).passes_written rfl rfl rfl)

theorem passes_samples {s : State} {a : FrameAnswers} {c₂ c₃ c₄ c₅ c₆ : List PortInputs}
    (hop : s.op = encode .sampleShape) (h₂ : Conversion s.cfg a.shape c₂) (h₃ : Conversion s.cfg a.phase c₃)
    (h₄ : Conversion s.cfg a.red c₄) (h₅ : Conversion s.cfg a.green c₅) (h₆ : Conversion s.cfg a.blue c₆) :
    Passes s (c₂ ++ (c₃ ++ (c₄ ++ (c₅ ++ c₆)))) (s.afterSamples a) :=
  Passes.trans (Conversion.passes h₂ rfl rfl hop) <|
    Passes.trans (Conversion.passes (i := .samplePhase) h₃ rfl rfl rfl) <|
    Passes.trans (Conversion.passes (i := .sampleRed) h₄ rfl rfl rfl) <|
    Passes.trans (Conversion.passes (i := .sampleGreen) h₅ rfl rfl rfl) <|
    Conversion.passes (i := .sampleBlue) h₆ rfl rfl rfl

theorem passes_push {s : State} {y : List PortInputs} (hop : s.op = encode .synthRed) (hy : Unread 4 y) :
    Passes s y s.afterPush := by
  obtain ⟨e₁, y, rfl, h₁, hy⟩ := hy.cons
  obtain ⟨e₂, y, rfl, h₂, hy⟩ := hy.cons
  obtain ⟨e₃, y, rfl, h₃, hy⟩ := hy.cons
  obtain ⟨e₄, rfl, h₄⟩ := hy.singleton
  exact ((visit_unread (i := .synthRed) (fun _ => trivial) h₁).passes_written rfl rfl hop).trans <|
    ((visit_unread (i := .synthGreen) (fun _ => trivial) h₂).passes_written rfl rfl rfl).trans <|
      ((visit_unread (i := .synthBlue) (fun _ => trivial) h₃).passes_written rfl rfl rfl).trans <|
        (visit_unread (i := .pushFront) (fun _ => trivial) h₄).passes_written rfl rfl rfl

/-- The three stretches and the strip write make the head's record. -/
theorem State.afterHead_eq (s : State) (a : FrameAnswers) :
    (((s.afterDelay a).afterSamples a).afterPush).goto .waitTick = s.afterHead a := by
  simp [State.afterDelay, State.afterSamples, State.afterPush, State.afterHead, State.stored, State.written, State.goto,
    synthesize_eq_specChannel, packColor_specChannel, delayOf_eq]

/-- The head of a frame (44_frame_scheduler.md R114). -/
theorem FrameHead.passes {s : State} {a : FrameAnswers} {l : List PortInputs} (hl : FrameHead s.cfg a l)
    (hop : s.op = encode .sampleSpeed) : Passes s l (s.afterHead a) := by
  obtain ⟨c₁, x, c₂, c₃, c₄, c₅, c₆, y, w, rfl, h₁, hx, h₂, h₃, h₄, h₅, h₆, hy, hw⟩ := hl
  have hdelay := passes_delay hop h₁ hx
  have hsamples := passes_samples (s := s.afterDelay a) rfl h₂ h₃ h₄ h₅ h₆
  have hpush := passes_push (s := (s.afterDelay a).afterSamples a) rfl hy
  have hwrite : Passes _ w ((((s.afterDelay a).afterSamples a).afterPush).goto .waitTick) :=
    hw.visit.passes_written rfl rfl rfl
  have hhead := hdelay.trans (hsamples.trans (hpush.trans hwrite))
  rw [← State.afterHead_eq]
  simpa only [List.append_assoc] using hhead

/-- The state at SAMPLE_SPEED after a whole frame with the answers a that began in state s
(44_frame_scheduler.md R114). -/
def State.afterFrame (s : State) (a : FrameAnswers) : State :=
  { s.afterHead a with
    op := encode .sampleSpeed
    time := BitVec.ofNat 32 (s.time.toNat + specDelay s.cfg.toParams a.speed)
    remaining := 0#32 }

/-- The next frame's time, as a number (44_frame_scheduler.md R113, R114). -/
theorem State.afterFrame_time_toNat (s : State) (a : FrameAnswers) :
    (s.afterFrame a).time.toNat = (s.time.toNat + specDelay s.cfg.toParams a.speed) % 2 ^ 32 :=
  BitVec.toNat_ofNat _ _

/-- A fault-free frame: its head, the count of its delay, and the exit (44_frame_scheduler.md R114). -/
theorem FaultFreeFrame.passes {s : State} {a : FrameAnswers} {l : List PortInputs} (hl : FaultFreeFrame s.cfg a l)
    (hop : s.op = encode .sampleSpeed) : Passes s l (s.afterFrame a) := by
  obtain ⟨h, c, x, rfl, hhead, hcount, hx⟩ := hl
  have hrem : (s.afterHead a).remaining.toNat = specDelay s.cfg.toParams a.speed :=
    (BitVec.toNat_ofNat _ _).trans (Nat.mod_eq_of_lt (specDelay_lt s.cfg a.speed))
  have hwait := hcount.passes (s := s.afterHead a) rfl hrem.ge
  rw [hrem, Nat.sub_self] at hwait
  exact ((hhead.passes hop).trans hwait).trans (passes_exit hx rfl rfl)

/-- The run over a fault-free frame. -/
theorem FaultFreeFrame.run {s : State} {a : FrameAnswers} {l rest : List PortInputs} (hl : FaultFreeFrame s.cfg a l)
    (hs : Live s) (hop : s.op = encode .sampleSpeed) (hstim : s.stim = l ++ rest) :
    Host.Core.run Sys2Proof.core l.length s = .next ((s.afterFrame a).facing rest (s.edge + l.length)) := by
  have hrun := (hl.passes hop).run hs rest s.edge
  rwa [← hstim, State.facing_self] at hrun

/-- Settles O55: the frame's edges are passed, the invariant gives the registers that no step of a fault-free frame writes,
and the push of a full buffer drops the oldest entry. -/
theorem faultFreeFrameFunction : Obligations.FaultFreeFrameFunction := by
  intro s a l rest hs hop hl hstim
  have hcode : s.faultCode = 0#2 := hs.faultCode_eq_zero (by rw [hop]; decide)
  have hfaultOp : s.faultOp = 0x0#4 := by
    obtain ⟨-, h⟩ | ⟨h, -⟩ | ⟨h, -⟩ := hs.fault_record
    · exact h
    · simp [hcode] at h
    · simp [hcode] at h
  rw [hl.run hs.live hop hstim, ← hcode, ← hfaultOp, ← hs.reset_seen, ← pushColor_eq _ _ _ hs.hist_length]
  rfl

/-! ## Frames in a row -/

/-- The invariant over a run. -/
theorem Inv.of_run {k : Nat} {s t : State} (hs : Inv s) (h : Host.Core.run Sys2Proof.core k s = .next t) : Inv t := by
  obtain ⟨u, hu, hinv⟩ := hs.run_answers_next k
  cases hu.symm.trans h
  exact hinv

/-- A full buffer's trail: what one push dropped, a cut after further pushes drops as well (42_history_buffer.md R98). -/
theorem take_append_pushColor (b : Build) (cs : List Color) (c : Color) (hist : List Color) :
    (cs ++ pushColor b c hist).take b.numLeds = (cs ++ c :: hist).take b.numLeds := by
  rw [pushColor, List.take_append, List.take_append, List.take_take, Nat.min_eq_left (Nat.sub_le _ _)]

theorem specTotalDelay_cons (p : Params) (a : FrameAnswers) (as : List FrameAnswers) :
    specTotalDelay p (a :: as) = specDelay p a.speed + specTotalDelay p as := by
  simp [specTotalDelay]

/-- Settles O56, by induction on the frames: each starts where the one before it ended. -/
theorem framesAccumulateTimeAndTrail : Obligations.FramesAccumulateTimeAndTrail := by
  intro fs
  induction fs with
  | nil =>
    intro s rest hs hop _ hstim
    refine ⟨s, rfl, hop, hstim, ?_, ?_⟩
    · simp [specTotalDelay]
    · simp [specColors, ← hist_length_of_wf hs.hist_length]
  | cons f fs ih =>
    obtain ⟨a, l⟩ := f
    intro s rest hs hop hfs hstim
    obtain ⟨hf, hfs⟩ := List.forall_mem_cons.1 hfs
    have hfirst := hf.run hs.live hop (rest := (fs.map Prod.snd).flatten ++ rest) (by simpa using hstim)
    obtain ⟨t, hothers, htop, htstim, httime, hthist⟩ := ih _ rest (hs.of_run hfirst) rfl hfs rfl
    refine ⟨t, ?run, htop, htstim, httime.trans ?time, hthist.trans ?trail⟩
    case run => rw [List.map_cons, List.flatten_cons, List.length_append, run_add _ _ hfirst, hothers]
    case time =>
      rw [← word_add_ofNat, List.map_cons, specTotalDelay_cons, ← Nat.add_assoc, BitVec.ofNat_add]
      rfl
    case trail =>
      refine (take_append_pushColor s.cfg _ _ s.hist).trans ?_
      rw [State.facing_time, State.afterFrame_time_toNat, List.map_cons, specColors, List.reverse_cons,
        List.append_assoc, List.singleton_append]
      rfl

/-! ## Frames from reset -/

/-- INIT's edge leads from the reset state to SAMPLE_SPEED (44_frame_scheduler.md R107). -/
theorem step_afterReset {b : Build} {e : PortInputs} {l : List PortInputs} {n : Nat} (hr : e.rst = false) :
    step (State.afterReset b (e :: l) n) = .next ((State.afterReset b l (n + 1)).goto .sampleSpeed) :=
  ((inv_afterReset b (e :: l) n).live.runs (i := .init) rfl rfl hr).step_next (exec_init _)

/-- A trail in a buffer that was zeroed: unfilled slots hold 0x000000 (42_history_buffer.md R98). -/
theorem take_append_replicate_getElem? (cs : List Color) {i n : Nat} (hi : i < n) :
    ((cs ++ List.replicate n 0#24).take n)[i]? = some (cs.getD i 0#24) := by
  rw [List.getElem?_take_of_lt hi]
  obtain hlt | hge := Nat.lt_or_ge i cs.length
  · rw [List.getElem?_append_left hlt, List.getElem?_eq_getElem hlt, List.getD_eq_getElem _ _ hlt]
  · rw [List.getElem?_append_right hge, List.getElem?_replicate_of_lt (by omega), List.getD_eq_default _ _ hge]

/-- Settles O57: INIT's edge, and then the frames in a row from `time` 0 and a zeroed buffer. -/
theorem framesFromReset : Obligations.FramesFromReset := by
  intro b e fs rest n hr hfs
  have hinit := step_afterReset (b := b) (l := (fs.map Prod.snd).flatten ++ rest) (n := n) hr
  have hinv := everyStepKeepsTheInvariant _ _ (inv_afterReset b _ n) hinit
  obtain ⟨t, hrun, htop, htstim, httime, hthist⟩ := framesAccumulateTimeAndTrail fs _ rest hinv rfl hfs rfl
  refine ⟨t, ?_, htop, htstim, ?_, fun i hi => ?_⟩
  · rw [Nat.add_comm, run_succ _ hinit, hrun]
  · simpa using httime
  · refine (congrArg (·[i]?) hthist).trans ?_
    exact take_append_replicate_getElem? _ hi

end Sys2Proof.Machine

end

/-! # Faults and hangs

The block halts only by entering a fault, a fault is entered only on a reported failure, and where no answer and no tick
comes the block holds (60_exceptions.md). The frame's status line is read off the state at WAIT_TICK. -/

section

namespace Sys2Proof.Machine

/-! ## Fault entry -/

/-- Settles O40: the answer of a SAMPLE step to a failure is the fault entry of 60_exceptions.md R119. -/
theorem sampleFaultNamesItsStep : Obligations.SampleFaultNamesItsStep :=
  fun _ _ hi hf => exec_of_smpFault hi hf

/-- Settles O41: of the five results of a step other than HALTED, only the two fault entries go to HALTED. -/
theorem faultEntryIsPrecise : Obligations.FaultEntryIsPrecise := by
  intro i s t hop hi h htop
  cases exec_result h with
  | completed n hn hc => exact absurd htop (successor_ne_init_halted hn).2
  | sampleFault hs hf => exact ⟨rfl, .inl ⟨rfl, hs, hf⟩⟩
  | transmitFault hw he hp => exact ⟨rfl, .inr ⟨rfl, hw, he, hp⟩⟩
  | counted hw hr ht => exact absurd (encode_injective (j := .halted) (hop.symm.trans htop)) hi
  | held hw => exact absurd (encode_injective (j := .halted) (hop.symm.trans htop)) hi

/-! ## Fault code 3 -/

/-- No step records UNSUPPORTED_OP: a step leaves `fault_code` as it was or enters one of the two faults
(60_exceptions.md R122). -/
theorem exec_keeps_supported {i : Instr} {s t : State} (hs : s.faultCode ≠ FaultCode.unsupported)
    (h : exec i s = .next t) : t.faultCode ≠ FaultCode.unsupported := by
  cases exec_result h with
  | completed n hn hc => rwa [State.goto_faultCode, State.written_faultCode]
  | sampleFault hi hf => rw [State.enterFault_faultCode]; decide
  | transmitFault hi he hp => rw [State.enterFault_faultCode]; decide
  | counted hi hr ht => exact hs
  | held hw => exact hs

/-- Settles O12: a reset edge clears the code, every other edge that answers runs a step, and none is run where the code
stands. -/
theorem unsupportedOpNeverProduced : Obligations.UnsupportedOpNeverProduced := by
  refine ⟨fun s t h => ?_, fun s hcode hr => ?_⟩
  · obtain ⟨-, rfl⟩ | ⟨-, -, hs, i, u, -, hu, rfl⟩ := step_cases h
    · rw [State.advance_faultCode, State.resetRegisters_faultCode]
      decide
    · rw [State.advance_faultCode]
      exact exec_keeps_supported hs hu
  · cases hs : step s with
    | next t =>
      obtain ⟨i, -, hi, -⟩ := exists_runs hr hs
      exact absurd hcode hi.supported
    | fault r => cases r
    | refused r => exact ⟨r, rfl⟩

/-! ## Halting -/

/-- The coming inputs are those listed and those drawn by the edge's number, and nothing else of the state (log 2). -/
theorem inputAt_congr {s t : State} (hstim : t.stim = s.stim) (hedge : t.edge = s.edge) (j : Nat) :
    t.inputAt j = s.inputAt j := by
  simp only [State.inputAt, hstim, hedge]

/-- No step writes the build or the coming inputs (log 2, log 3). -/
theorem exec_keeps_environment {i : Instr} {s t : State} (h : exec i s = .next t) :
    t.cfg = s.cfg ∧ t.stim = s.stim ∧ t.edge = s.edge := by
  cases exec_result h with
  | completed n hn hc => exact ⟨s.written_cfg, s.written_stim, s.written_edge⟩
  | sampleFault hi hf => exact ⟨rfl, rfl, rfl⟩
  | transmitFault hi he hp => exact ⟨rfl, rfl, rfl⟩
  | counted hi hr ht => exact ⟨rfl, rfl, rfl⟩
  | held hw => exact ⟨rfl, rfl, rfl⟩

/-- Every edge keeps the build and brings the inputs one edge nearer. -/
theorem step_environment {s t : State} (h : step s = .next t) :
    t.cfg = s.cfg ∧ ∀ j, t.inputAt j = s.inputAt (j + 1) := by
  have hnext {u : State} (hstim : u.stim = s.stim) (hedge : u.edge = s.edge) (j : Nat) :
      u.advance.inputAt j = s.inputAt (j + 1) := by
    rw [State.advance_eq_after, inputAt_after, inputAt_congr hstim hedge, Nat.add_comm]
  obtain ⟨-, rfl⟩ | ⟨-, -, -, i, u, -, hu, rfl⟩ := step_cases h
  · exact ⟨rfl, hnext rfl rfl⟩
  · obtain ⟨hcfg, hstim, hedge⟩ := exec_keeps_environment hu
    exact ⟨hcfg, hnext hstim hedge⟩

/-- Without a failure that the build takes as a fault, an edge does not halt the block (60_exceptions.md R125). -/
theorem step_op_ne_halted {s t : State} (hop : s.op ≠ 0xF#4) (hn : noFailure s.cfg s.now) (h : step s = .next t) :
    t.op ≠ 0xF#4 := by
  obtain ⟨-, rfl⟩ | ⟨-, -, -, i, u, hi, hu, rfl⟩ := step_cases h
  · rw [State.advance_op, State.resetRegisters_op]
    decide
  · intro htop
    have hne : i ≠ .halted := by
      rintro rfl
      exact hop hi
    obtain ⟨hsmp, hwr⟩ := hn
    obtain ⟨-, ⟨-, -, hf⟩ | ⟨-, -, he, hp⟩⟩ := faultEntryIsPrecise i s u hi hne hu htop
    · simp [hsmp] at hf
    · simp [he, hp] at hwr

/-- A run that answers a next state does so edge by edge. -/
theorem exists_step_of_run_succ {k : Nat} {s t : State} (h : Host.Core.run Sys2Proof.core (k + 1) s = .next t) :
    ∃ u, step s = .next u ∧ Host.Core.run Sys2Proof.core k u = .next t := by
  cases hs : step s with
  | next u => exact ⟨u, rfl, by rwa [← run_succ k hs]⟩
  | fault r => cases r
  | refused r =>
    have hs' : Sys2Proof.core.step s = .refused r := hs
    simp [Host.Core.run, hs'] at h

/-- Without such failures, no run halts the block (60_exceptions.md R125). -/
theorem run_op_ne_halted {k : Nat} {s t : State} (hop : s.op ≠ 0xF#4)
    (hn : ∀ j, j < k → noFailure s.cfg (s.inputAt j)) (h : Host.Core.run Sys2Proof.core k s = .next t) :
    t.op ≠ 0xF#4 := by
  induction k generalizing s with
  | zero =>
    cases (h : (Host.Outcome.next s : Result) = .next t)
    exact hop
  | succ k ih =>
    obtain ⟨u, hs, hothers⟩ := exists_step_of_run_succ h
    obtain ⟨hcfg, hinput⟩ := step_environment hs
    have hfirst : noFailure s.cfg s.now := now_eq_inputAt s ▸ hn 0 k.succ_pos
    refine ih (step_op_ne_halted hop hfirst hs) (fun j hj => ?_) hothers
    rw [hcfg, hinput]
    exact hn (j + 1) (Nat.succ_lt_succ hj)

/-- Settles O42: no run halts without a failure, and the script's edge for `!fault` or
`!err` (30_encoding.md R70) brings the fault about. -/
theorem haltComesFromReportedFailures : Obligations.HaltComesFromReportedFailures := by
  refine ⟨fun k s t hs hop hn h => ?_, fun i s hi hop hseen hcode => ?_, fun s hop hp hseen hcode => ?_⟩
  · have htop := run_op_ne_halted hop hn h
    exact ⟨htop, (hs.of_run h).faultCode_eq_zero htop⟩
  · have hruns : Runs i { s with stim := [sampleEdge .fault] } := ⟨rfl, hseen, hcode, hop⟩
    exact ⟨_, _, hruns.step_next (exec_of_smpFault hi rfl), rfl, rfl⟩
  · have hruns : Runs .writeStrip { s with stim := [writeEdge .err] } := ⟨rfl, hseen, hcode, hop⟩
    exact ⟨_, _, hruns.step_next (exec_writeStrip_of_wrErr_of_halt rfl hp), rfl, rfl⟩

/-! ## Hangs -/

/-- Settles O43: without its answer or its tick each of the steps waits on every edge. -/
theorem noAnswerHoldsForEver : Obligations.NoAnswerHoldsForEver := by
  intro k s hseen hcode hr
  have hs : Live s := ⟨hseen, hcode⟩
  refine ⟨?sample, fun hop hin => ?strip, fun hop hrem hin => ?tick⟩
  case sample =>
    rintro ⟨i, hi, hop⟩ hin
    refine hs.run_of_waits hop k hr fun j hj => ?_
    obtain ⟨hack, hfault⟩ := hin j hj
    exact waits_of_isSample hi (by rwa [now_after]) (by rwa [now_after])
  case strip =>
    refine hs.run_of_waits (i := .writeStrip) hop k hr fun j hj => ?_
    obtain ⟨hdone, herr⟩ := hin j hj
    exact ⟨by rwa [now_after], by rwa [now_after]⟩
  case tick =>
    refine hs.run_of_waits (i := .waitTick) hop k hr fun j hj => ⟨hrem, ?_⟩
    rw [now_after]
    exact hin j hj

/-! ## The status line -/

/-- While no fault is recorded, `fault_op` is 0 (10_state.md R32). -/
theorem Inv.faultOp_eq_zero {s : State} (hs : Inv s) (h : s.faultCode = 0#2) : s.faultOp = 0x0#4 := by
  obtain ⟨-, hop⟩ | ⟨hc, -⟩ | ⟨hc, -⟩ := hs.fault_record
  · exact hop
  · simp [h] at hc
  · simp [h] at hc

/-- The run over the head of a frame. -/
theorem FrameHead.run {s : State} {a : FrameAnswers} {l rest : List PortInputs} (hl : FrameHead s.cfg a l) (hs : Live s)
    (hop : s.op = encode .sampleSpeed) (hstim : s.stim = l ++ rest) :
    Host.Core.run Sys2Proof.core l.length s = .next ((s.afterHead a).facing rest (s.edge + l.length)) := by
  have hrun := (hl.passes hop).run hs rest s.edge
  rwa [← hstim, State.facing_self] at hrun

/-- What the status outputs show after the head of a frame: the color just pushed is entry 0, and the fault registers are as
they were (10_state.md R43). -/
theorem statusOutputs_afterHead (s : State) (a : FrameAnswers) (rest : List PortInputs) (m : Nat) :
    statusOutputs ((s.afterHead a).facing rest m) =
      { halted := false, faultCode := s.faultCode, faultOp := s.faultOp, dbgOp := 0xD#4, dbgTime := s.time,
        dbgColor := some (specColor s.cfg.toParams s.time.toNat a),
        dbgDelay := BitVec.ofNat 32 (specDelay s.cfg.toParams a.speed), dbgPhase := a.phase, dbgShape := a.shape } := by
  have hcolor : histEntry ((s.afterHead a).facing rest m) 0 = some (specColor s.cfg.toParams s.time.toNat a) :=
    pushColor_getElem?_zero s.cfg _ s.hist
  rw [statusOutputs, hcolor]
  rfl

/-- Settles O58: the frame's head comes to WAIT_TICK, and the invariant gives the fault outputs, which it leaves alone. -/
theorem statusLineOfTheFrame : Obligations.StatusLineOfTheFrame := by
  intro s a l rest hs hop hl hstim
  have hcode : s.faultCode = 0#2 := hs.faultCode_eq_zero (by rw [hop]; decide)
  refine ⟨_, hl.run hs.live hop hstim, rfl, rfl, ?_⟩
  rw [statusOutputs_afterHead, hcode, hs.faultOp_eq_zero hcode]

end Sys2Proof.Machine

end

/-! # Reset

A reset edge makes the reset state of the build whatever the state was, and it alone leaves HALTED; before the first one no
step is run, and an illegal configuration never becomes a build (70_reset_and_hazards.md). -/

section

namespace Sys2Proof.Machine

/-! ## The reset state -/

/-- Settles O10: the fields of `State.afterReset`, in the reference build. -/
theorem resetStateHoldsResetValues : Obligations.ResetStateHoldsResetValues :=
  ⟨rfl, rfl, rfl, rfl, rfl, rfl, rfl, rfl, rfl, rfl, rfl, rfl, rfl, rfl, rfl, rfl⟩

/-- Settles O48: `State.reset` is one of the reset states. -/
theorem resetMeetsTheInvariant : Obligations.ResetMeetsTheInvariant :=
  ⟨inv_afterReset, inv_afterReset Config.referenceBuild [] 0⟩

theorem packStrip_replicate_zero (n : Nat) : packStrip (List.replicate n 0#24) = 0 := by
  induction n with
  | zero => rfl
  | succ n ih => simp [List.replicate_succ, ih]

/-- The outputs of the reset state (70_reset_and_hazards.md R133). -/
theorem outputs_afterReset (b : Build) (l : List PortInputs) (n : Nat) :
    smpReq (State.afterReset b l n) = false ∧ wrReq (State.afterReset b l n) = false ∧
    halted (State.afterReset b l n) = false ∧ (wrColors (State.afterReset b l n)).toNat = 0 := by
  refine ⟨rfl, rfl, rfl, ?_⟩
  rw [wrColors_toNat (zeroed_wf b)]
  exact packStrip_replicate_zero b.numLeds

/-! ## The reset edge -/

/-- A reset edge leads to the reset state of the build, from any state (70_reset_and_hazards.md R133). -/
theorem step_of_rst {s : State} (h : s.now.rst = true) :
    step s = .next (State.afterReset s.cfg s.stim.tail (s.edge + 1)) :=
  step_reset h

/-- Settles O7: the fields and the outputs of the reset state that the edge leads to. -/
theorem resetEdgeGivesResetValues : Obligations.ResetEdgeGivesResetValues := by
  intro s hr
  exact ⟨_, step_of_rst hr, rfl, rfl, rfl, rfl, rfl, rfl, rfl, rfl, rfl, rfl, rfl, rfl, rfl, rfl, rfl, rfl, rfl,
    outputs_afterReset _ _ _⟩

/-- Settles O13: of the refusals, that of a state no reset edge has initialised comes first, and reset beats it. -/
theorem powerOnNeedsReset : Obligations.PowerOnNeedsReset := by
  refine ⟨fun s hseen hr => ?_, fun s _ hr => step_of_rst hr⟩
  have hrun : step s = runStep s := by simp [step, clockEdge, hr]
  rw [hrun, runStep, if_pos hseen]

/-- Every edge of a held reset leads to the reset state, the last one's environment in it (70_reset_and_hazards.md R134). -/
theorem run_of_rst {k : Nat} {s : State} (hr : ∀ j, j ≤ k → (s.inputAt j).rst = true) :
    Host.Core.run Sys2Proof.core (k + 1) s = .next (State.afterReset s.cfg (s.stim.drop (k + 1)) (s.edge + (k + 1))) := by
  have hfirst {u : State} (h0 : (u.inputAt 0).rst = true) :
      step u = .next (State.afterReset u.cfg u.stim.tail (u.edge + 1)) :=
    step_of_rst (now_eq_inputAt u ▸ h0)
  induction k generalizing s with
  | zero =>
    rw [run_succ 0 (hfirst (hr 0 (Nat.le_refl 0))), Nat.zero_add, List.drop_one]
    rfl
  | succ k ih =>
    have hs := hfirst (hr 0 (Nat.zero_le (k + 1)))
    have hrest (j : Nat) (hj : j ≤ k) : ((State.afterReset s.cfg s.stim.tail (s.edge + 1)).inputAt j).rst = true := by
      rw [(step_environment hs).2]
      exact hr (j + 1) (Nat.succ_le_succ hj)
    rw [run_succ (k + 1) hs, ih hrest]
    simp [Nat.add_assoc, Nat.add_comm 1]

/-- Settles O8: the run of a held reset; and without reset an edge in HALTED runs HALTED, which holds. -/
theorem resetMayBeHeld : Obligations.ResetMayBeHeld := by
  refine ⟨fun k s hr => run_of_rst hr, fun s t hop h htop => ?_⟩
  cases hr : s.now.rst with
  | true => rfl
  | false =>
    obtain ⟨i, u, hi, hu, rfl⟩ := exists_runs hr h
    obtain rfl : i = .halted := encode_injective (hi.op.symm.trans hop)
    cases (exec_halted s).symm.trans hu
    exact absurd hop htop

/-- Settles O9: INIT's edge leads to SAMPLE_SPEED with the invariant, whose edge then runs that step. -/
theorem firstEdgesAfterReset : Obligations.FirstEdgesAfterReset := by
  intro b e₁ e₂ rest n h₁ h₂
  have hfirst := step_afterReset (b := b) (l := e₂ :: rest) (n := n) h₁
  have hlive := (everyStepKeepsTheInvariant _ _ (inv_afterReset b _ n) hfirst).live
  obtain ⟨u, hu⟩ := exec_answers_next .sampleSpeed ((State.afterReset b (e₂ :: rest) (n + 1)).goto .sampleSpeed)
  obtain ⟨-, hstim, hedge⟩ := exec_keeps_environment hu
  refine ⟨_, u, hfirst, rfl, rfl, hu, ?_⟩
  rw [(hlive.runs rfl rfl h₂).step_next hu, State.advance, hstim, hedge]
  rfl

/-! ## Legal builds -/

/-- A legal configuration breaks no check. -/
theorem broken_of_legal {p : Params} (h : p.Legal) : p.broken = none := by
  obtain ⟨hbits, htable, hwave, hstart, horder, hwidth, hleds⟩ := h
  have hstart' : ¬ (p.tableLen = 256 ∧ p.wave[0]? ≠ some 128#8) := fun ⟨h256, hne⟩ => hne (hstart h256)
  rw [Params.broken, if_neg (by omega), if_neg (not_not_intro htable), if_neg (not_not_intro hwave), if_neg hstart',
    if_neg (by omega), if_neg (by omega), if_neg (by omega)]

/-- Settles O54: a configuration is legal exactly if it breaks no check, and elaboration answers by the checks alone. -/
theorem illegalBuildsAreRefused : Obligations.IllegalBuildsAreRefused := by
  refine ⟨fun p hp => ?_, fun p hp => ?_⟩
  · unfold Params.elaborate
    split
    next e hbroken => exact absurd (hbroken.symm.trans (broken_of_legal hp)) (Option.some_ne_none e)
    next => exact ⟨_, rfl, rfl⟩
  · unfold Params.elaborate
    split
    next => exact ⟨_, rfl⟩
    next hnone => exact absurd (p.legal_of_not_broken hnone) hp

end Sys2Proof.Machine

end

/-! # Hazards of time

The wrap of `time` (70_reset_and_hazards.md R140), and the least number of edges of a frame (R145). -/

section

namespace Sys2Proof.Machine

/-! ## The wrap of the time counter -/

/-- The last value of the 32-bit time counter leaves 255 modulo either table length. -/
theorem lastTime_add_mod_tableLen (b : Build) (m : Nat) : (2 ^ 32 - 1 + m) % b.tableLen = (255 + m) % b.tableLen := by
  obtain h | h := b.legal.2.1 <;> rw [h] <;> omega

/-- A number below 256 is an index of either table. -/
theorem mod_tableLen_of_lt {m : Nat} (hm : m < 256) (b : Build) : m % b.tableLen = m := by
  refine Nat.mod_eq_of_lt ?_
  obtain h | h := b.legal.2.1 <;> omega

/-- Settles O31: the tick is counted, `time` wraps, and the indices follow from `time` on both sides of the edge. -/
theorem timeWrapMovesTheIndexToZero : Obligations.TimeWrapMovesTheIndexToZero := by
  intro s htime hrem htick
  have hwrap : s.countTick.time = 0#32 := by
    rw [State.countTick_time, htime]
    rfl
  have hbefore (k : Nat) : (waveIndex s.cfg s.time k s.phaseS).val = (255 + k * (s.phaseS / 8)) % s.cfg.tableLen := by
    rw [waveIndex_val, htime]
    exact lastTime_add_mod_tableLen s.cfg _
  have hafter (k : Nat) : (waveIndex s.cfg s.countTick.time k s.phaseS).val = k * (s.phaseS / 8) % s.cfg.tableLen := by
    rw [waveIndex_val, hwrap, BitVec.toNat_ofNat, Nat.zero_mod, Nat.zero_add]
  refine ⟨_, exec_waitTick_of_tick hrem htick, hwrap, rfl, ?_, ?_, fun k => ⟨hbefore k, hafter k⟩⟩
  · rw [hbefore, Nat.zero_mul]
    exact mod_tableLen_of_lt (by decide) s.cfg
  · refine (hafter 0).trans ?_
    rw [Nat.zero_mul, Nat.zero_mod]

/-! ## The edges of a frame -/

/-- How many edges without reset it takes at least from step `i` to SAMPLE_SPEED: one for each step still to run, one for each
millisecond that remains, and WAIT_TICK's own exit. HALTED never comes there. -/
def edgesToSampleSpeed (i : Instr) (s : State) : ℕ∞ :=
  match i with
  | .init => 1
  | .sampleSpeed => 0
  | .deriveDelay => (11 + specDelay s.cfg.toParams s.speedS + 1 : ℕ)
  | .sampleShape | .samplePhase | .sampleRed | .sampleGreen | .sampleBlue | .synthRed | .synthGreen | .synthBlue
  | .pushFront | .writeStrip | .waitTick => ((encode .waitTick).toNat - (encode i).toNat + s.remaining.toNat + 1 : ℕ)
  | .halted => ⊤

/-- Completing brings SAMPLE_SPEED nearer by its one edge: DERIVE_DELAY loads the milliseconds that remain, the steps after it
leave them alone, and WAIT_TICK completes with none left. -/
theorem edgesToSampleSpeed_le_completed {i n : Instr} {s : State} (hn : successor i = some n) (hc : completes i s) :
    edgesToSampleSpeed i s ≤ edgesToSampleSpeed n ((s.written i).goto n) + 1 := by
  cases i with
  | init => cases hn; rfl
  | sampleSpeed => exact zero_le
  | deriveDelay =>
    cases hn
    have hload : (((s.written .deriveDelay).goto .sampleShape).remaining).toNat = specDelay s.cfg.toParams s.speedS :=
      (delayWord_toNat s.cfg s.speedS).trans (delayOf_eq s.cfg s.speedS)
    simp only [edgesToSampleSpeed, hload, encode, BitVec.reduceToNat]
    norm_cast
    omega
  | sampleShape | samplePhase | sampleRed | sampleGreen | sampleBlue | synthRed | synthGreen | synthBlue | pushFront
  | writeStrip =>
    cases hn
    simp only [edgesToSampleSpeed, encode, BitVec.reduceToNat, State.goto_remaining, State.written]
    norm_cast
    omega
  | waitTick =>
    cases hn
    have hnone : s.remaining = 0#32 := hc
    simp [edgesToSampleSpeed, hnone]
  | halted => cases hn

/-- A counted millisecond brings SAMPLE_SPEED nearer by its one edge. -/
theorem edgesToSampleSpeed_countTick {s : State} (hr : s.remaining ≠ 0#32) :
    edgesToSampleSpeed .waitTick s = edgesToSampleSpeed .waitTick s.countTick + 1 := by
  have hcount : s.remaining.toNat = s.countTick.remaining.toNat + 1 := by
    rw [State.countTick_remaining]
    bv_omega
  simp only [edgesToSampleSpeed, hcount]
  norm_cast

/-- No edge brings SAMPLE_SPEED nearer by more than one, a fault least of all. -/
theorem exec_edgesToSampleSpeed {i : Instr} {s t : State} (hop : s.op = encode i) (h : exec i s = .next t) :
    ∃ j, t.op = encode j ∧ edgesToSampleSpeed i s ≤ edgesToSampleSpeed j t + 1 := by
  cases exec_result h with
  | completed n hn hc => exact ⟨n, rfl, edgesToSampleSpeed_le_completed hn hc⟩
  | sampleFault hi hf => exact ⟨.halted, rfl, le_top⟩
  | transmitFault hi he hp => exact ⟨.halted, rfl, le_top⟩
  | counted hi hr ht =>
    subst hi
    exact ⟨.waitTick, hop, (edgesToSampleSpeed_countTick hr).le⟩
  | held hw => exact ⟨i, hop, le_self_add⟩

/-- The count does not speak of the coming inputs. -/
theorem edgesToSampleSpeed_advance (i : Instr) (s : State) : edgesToSampleSpeed i s.advance = edgesToSampleSpeed i s := rfl

/-- A run without reset brings SAMPLE_SPEED nearer by no more than its edges. -/
theorem run_edgesToSampleSpeed {k : Nat} {i : Instr} {s t : State} (hop : s.op = encode i)
    (hr : ∀ j, j < k → (s.inputAt j).rst = false) (h : Host.Core.run Sys2Proof.core k s = .next t) :
    ∃ j, t.op = encode j ∧ edgesToSampleSpeed i s ≤ edgesToSampleSpeed j t + k := by
  induction k generalizing i s with
  | zero =>
    cases (h : (Host.Outcome.next s : Result) = .next t)
    exact ⟨i, hop, le_self_add⟩
  | succ k ih =>
    obtain ⟨u, hs, hothers⟩ := exists_step_of_run_succ h
    have hinput := (step_environment hs).2
    obtain ⟨i', v, hi, hv, rfl⟩ := exists_runs (now_eq_inputAt s ▸ hr 0 k.succ_pos) hs
    obtain rfl : i' = i := encode_injective (hi.op.symm.trans hop)
    obtain ⟨m, hm, hfirst⟩ := exec_edgesToSampleSpeed hop hv
    obtain ⟨j, hj, hrest⟩ := ih (s := v.advance) hm
      (fun j hj => by rw [hinput]; exact hr (j + 1) (Nat.succ_lt_succ hj)) hothers
    refine ⟨j, hj, ?_⟩
    calc edgesToSampleSpeed i' s ≤ edgesToSampleSpeed m v + 1 := hfirst
      _ ≤ edgesToSampleSpeed j t + k + 1 := by
        rw [← edgesToSampleSpeed_advance m v]
        gcongr
      _ = edgesToSampleSpeed j t + (k + 1 : ℕ) := by rw [Nat.cast_add, Nat.cast_one, add_assoc]

/-- Settles O60: the count from DERIVE_DELAY, over a run that ends where the count is 0. -/
theorem frameTakesItsEdges : Obligations.FrameTakesItsEdges := by
  intro k s t _ hop hr h htop
  obtain ⟨j, hj, hle⟩ := run_edgesToSampleSpeed (i := .deriveDelay) hop hr h
  obtain rfl : j = .sampleSpeed := encode_injective (hj.symm.trans htop)
  rw [edgesToSampleSpeed, edgesToSampleSpeed, zero_add] at hle
  exact Nat.cast_le.mp hle

end Sys2Proof.Machine

end
